-- ==== Sys2Proof/Word.lean ====
section
/-! DEFINITION. The word types of the DS4 HID report codec block (spec 00 R8, R9). -/

namespace Sys2Proof

/-- A byte is 8 bits (00 R8). -/
abbrev Byte := BitVec 8

/-- The command word `CMD`, 40 bits (30 R71). -/
abbrev CmdWord := BitVec 40

/-- The timestamp, `TS_W` = 64 opaque bits (00 R7, 10 R31). -/
abbrev Stamp := BitVec 64

/-- A byte sequence as a function of its 0-based offsets (00 R9): what the decoder indexes as `V[i]`. Its length is
carried beside it where a rule looks at the length. -/
abbrev View := Nat → Byte

end Sys2Proof
end

