-- ==== Sys2Proof/Config.lean ====
section
/-! DEFINITION. The configuration record of the block (spec 00 R7, 10 R34) and the model's free values.

The values this hardware takes stand in `Sys2Proof.Machine.hw` (Machine/Params.lean). -/

namespace Sys2Proof

/-- The build-time parameters of 00 R7. No operation reads or writes them as state (10 R34). -/
structure Config where
  /-- `STICK_DZ`, in units of 1/128, 0..128 (92 D6). -/
  stickDz : Nat
  /-- `TRIG_DZ`, in units of 1/255, 0..255 (92 D6). -/
  trigDz : Nat
  /-- `RXCAP`, bytes the RX buffer holds, at least 44 (92 D3). -/
  rxCap : Nat
  /-- `USB_FLAGS`, the USB feature-enable byte (92 D12). -/
  usbFlags : Byte
  /-- `BT_POLL_OFF` (92 D13). -/
  btPollOff : Nat
  /-- `BT_POLL_VAL` (92 D13). -/
  btPollVal : Byte
  /-- `BT_FLAGS_OFF` (92 D13). -/
  btFlagsOff : Nat
  /-- `BT_FLAGS_VAL` (92 D13). -/
  btFlagsVal : Byte
  /-- `BT_LIGHT_OFF` (92 D13). -/
  btLightOff : Nat
  /-- `BT_HEAVY_OFF` (92 D13). -/
  btHeavyOff : Nat
  /-- `BT_R_OFF` (92 D13). -/
  btROff : Nat
  /-- `BT_G_OFF` (92 D13). -/
  btGOff : Nat
  /-- `BT_B_OFF` (92 D13). -/
  btBOff : Nat
  /-- `BT_CRC_LSB_FIRST` (92 D14). -/
  btCrcLsbFirst : Bool
  /-- `CRC_POLY_REFLECTED` (92 D15). -/
  crcPoly : BitVec 32
  /-- `CRC_INIT` (92 D15). -/
  crcInit : BitVec 32
  /-- `CRC_XOROUT` (92 D15). -/
  crcXorOut : BitVec 32
  deriving DecidableEq, Repr

/-- The offsets of the seven bytes of the Bluetooth frame that are parameters (00 R7). -/
def Config.btOffsets (c : Config) : List Nat :=
  [c.btPollOff, c.btFlagsOff, c.btLightOff, c.btHeavyOff, c.btROff, c.btGOff, c.btBOff]

/-- The bounds 00 R7 puts on the parameters, and that each Bluetooth byte has a place of its own between the two bytes of
the pre-header and the trailer (30 R79). -/
abbrev Config.Valid (c : Config) : Prop :=
  c.stickDz ≤ 128 ∧ c.trigDz ≤ 255 ∧ 44 ≤ c.rxCap ∧
    c.btOffsets.Nodup ∧ ∀ o ∈ c.btOffsets, 2 ≤ o ∧ o < 75

/-- FREE VALUE: what the RX buffer holds at an address nobody has written since power-up (93 U3 "any value"; 10 R38
"unspecified"; log 5). Nothing constrains it. -/
opaque Config.rxPowerUp : Nat → Byte

/-- FREE VALUE: what the TX buffer holds at an address nobody has written since power-up (93 U3, 10 R38; log 6).
Nothing constrains it. -/
opaque Config.txPowerUp : Nat → Byte

end Sys2Proof
end

