-- ==== Sys2Proof/Machine/Params.lean ====
section
/-! DEFINITION. The values this hardware takes: the constants of 00 R7 and the defaults of its parameters. -/

namespace Sys2Proof.Machine

/-- The parameters of this hardware (00 R7; log 8, 9). -/
def hw : Config :=
  { stickDz := 0, trigDz := 0, rxCap := 128, usbFlags := 0xF3, btPollOff := 2, btPollVal := 0x80, btFlagsOff := 4,
    btFlagsVal := 0xFF, btLightOff := 7, btHeavyOff := 8, btROff := 9, btGOff := 10, btBOff := 11, btCrcLsbFirst := true,
    crcPoly := 0xEDB88320, crcInit := 0xFFFFFFFF, crcXorOut := 0xFFFFFFFF }

/-- `USB_FIRST_LEN` (00 R7). -/
def usbFirstLen : Nat := 63

/-- `MIN_VIEW_LEN` (00 R7, 20 R63). -/
def minViewLen : Nat := 42

/-- `BT_STRIP` (00 R7). -/
def btStrip : Nat := 2

/-- `USB_OUT_LEN` (00 R7). -/
def usbOutLen : Nat := 16

/-- `USB_OUT_RID` (00 R7). -/
def usbOutRid : Byte := 0x05

/-- `BT_OUT_LEN` (00 R7), which is also the size of the TX buffer (10 R35). -/
def btOutLen : Nat := 79

/-- `BT_OUT_HDR` (00 R7). -/
def btOutHdr : Byte := 0xA2

/-- `BT_OUT_RID` (00 R7). -/
def btOutRid : Byte := 0x11

/-- `FEATURE_REPORT_ID` (00 R7). -/
def featureReportId : Byte := 0x02

end Sys2Proof.Machine
end

