-- ==== Sys2Proof/Syntax.lean ====
section
/-! DEFINITION. The operations of the block, whole: one constructor per row of spec/opcode_table.json, and the words
they are decoded from. -/

namespace Sys2Proof

/-- The transport, `IFACE` (10 R21). The fourth 2-bit value is never held (10 R21, 93 U4), so it has no constructor. -/
inductive Iface where
  /-- Disconnected: no report seen since connection start. -/
  | disc
  /-- The first report had length 63. -/
  | usb
  /-- The first report had any other length. -/
  | bt
  deriving DecidableEq, Repr

/-- The operations (00 R6). The first nine are the host operations of 30 R72; the others are the internal sub-operations,
each with the operands its rule names: the host cannot present them (00 R6), and only the model's own field `State.call` can
have one run on its own (DESIGN CHOICE, log 1). -/
inductive Instr where
  /-- `NOP` (40 R107); `ARG` is ignored (30 R82 b) and kept as an operand that nothing reads (log 23). -/
  | nop (arg : BitVec 32)
  /-- `RST` (70 R231); `ARG` is ignored (log 23). -/
  | rst (arg : BitVec 32)
  /-- `RXR` (40 R100) with the raw length and the report-id tag (30 R73). -/
  | rxr (len : BitVec 16) (rid : Byte)
  /-- `SRL` (42 R161); `VAL` is `ARG` as a signed integer (30 R74). -/
  | srl (val : BitVec 32)
  /-- `SRH` (42 R162). -/
  | srh (val : BitVec 32)
  /-- `SLR` (42 R163). -/
  | slr (val : BitVec 32)
  /-- `SLG` (42 R164). -/
  | slg (val : BitVec 32)
  /-- `SLB` (42 R165). -/
  | slb (val : BitVec 32)
  /-- `ENC` (42 R168); `ARG` is ignored (log 23). -/
  | enc (arg : BitVec 32)
  /-- `DECODE` of a byte view (41 R120). -/
  | decode (view : List Byte)
  /-- `DETECT` of a raw length and a current interface (40 R101). -/
  | detect (rawLength : Nat) (cur : Iface)
  /-- `NORM_STICK` of a raw byte (41 R121). -/
  | normStick (raw : Byte)
  /-- `NORM_TRIG` of a raw byte (41 R127). -/
  | normTrig (raw : Byte)
  /-- `BATT` of the battery nibble and the charging flag (41 R131). -/
  | batt (n : BitVec 4) (c : Bool)
  /-- `SLOT` of the four bytes of a touch slot (41 R132). -/
  | slot (b0 b1 b2 b3 : Byte)
  /-- `CLAMP8` of a signed 32-bit value (42 R160). -/
  | clamp8 (v : BitVec 32)
  /-- `SEND` (42 R169); its operand, `IFACE`, is implicit. -/
  | send
  /-- `ENCODE_USB` (42 R166); no operands. -/
  | encodeUsb
  /-- `ENCODE_BT` (42 R167); no operands. -/
  | encodeBt
  /-- `CRC32` of a byte sequence of any length (43 R190). -/
  | crc32 (m : List Byte)
  deriving DecidableEq, Repr

/-- The names of the internal sub-operations (00 R6). -/
inductive SubOp where
  | decode | detect | normStick | normTrig | batt | slot | clamp8 | send | encodeUsb | encodeBt | crc32
  deriving DecidableEq, Repr

/-- What the decoder reads: a host operation's 40-bit command word (30 R71), which is all a host can present, or an internal
sub-operation's name and the bytes of its operands (DESIGN CHOICE, log 2). -/
inductive Words where
  | cmd (w : CmdWord)
  | call (op : SubOp) (operand : List Byte)
  deriving DecidableEq, Repr

/-- Why words encode no operation. -/
inductive Reject where
  /-- `OP` is not one of the nine of 30 R72 (30 R82 a). -/
  | unknownOp (op : Byte)
  /-- An `RXR` whose `ARG[31:24]` is not 0 (30 R82 a). -/
  | rxrHighByte (b : Byte)
  /-- The operand bytes of a called sub-operation are not as many as its row has, or a bit above the row's bits is set. -/
  | operandShape (op : SubOp)
  /-- `DETECT` called with 3 for the current interface, a value never held (93 U4). -/
  | ifaceThree
  deriving DecidableEq, Repr

end Sys2Proof
end

