-- ==== Sys2Proof/Machine/State.lean ====
section
/-! DEFINITION. The state of the block as plain data (spec 10, 30 R75, R80, R85), its value after reset, and the reasons a step
can stop. -/

namespace Sys2Proof.Machine

/-- One entry of the touch sequence (10 R30): `id` 7 bits, `x` and `y` 12 bits. -/
structure Touch where
  id : BitVec 7
  x : BitVec 12
  y : BitVec 12
  deriving DecidableEq, Repr

/-- An entry of all zeros: what `TOUCH[j]` holds for `j >= TOUCH_N` (10 R30, 92 D7). -/
def Touch.zero : Touch := { id := 0, x := 0, y := 0 }

/-- ControllerState (10 R20, R22). -/
structure Controller where
  /-- `STICK[0..3]`, two's complement, units of 1/128 (10 R23). -/
  stick : Vector Byte 4
  /-- `TRIG[0..1]`, l2 and r2, unsigned, units of 1/255 (10 R24). -/
  trig : Vector Byte 2
  /-- `GYRO[0..2]`, unsigned (10 R27). -/
  gyro : Vector (BitVec 16) 3
  /-- `ACCEL[0..2]`, two's complement (10 R27). -/
  accel : Vector (BitVec 16) 3
  /-- `BTN`, 18 flags (10 R28). -/
  btn : BitVec 18
  /-- `BATTERY`, 0..136 (10 R29). -/
  battery : Byte
  /-- `CHARGING` (10 R29). -/
  charging : Bool
  /-- `TOUCH_N` (10 R30). -/
  touchN : BitVec 2
  /-- `TOUCH[0..1]` (10 R30). -/
  touch : Vector Touch 2
  /-- `TIMESTAMP` (10 R31). -/
  timestamp : Stamp
  deriving DecidableEq, Repr

/-- RumbleState: `RUMBLE_LIGHT` and `RUMBLE_HEAVY` (10 R32). -/
structure Rumble where
  light : Byte
  heavy : Byte
  deriving DecidableEq, Repr

/-- LightbarState: `LB_R`, `LB_G`, `LB_B` (10 R33). -/
structure Lightbar where
  r : Byte
  g : Byte
  b : Byte
  deriving DecidableEq, Repr

/-- A byte buffer: the bytes written to it, as (address, byte) pairs with strictly rising addresses. -/
abbrev Memory := List Host.Cell

/-- The result of an operation (60 R200). -/
inductive Status where
  | ok | ePrecond | eBounds | eIllegal
  deriving DecidableEq, Repr

/-- An event toward the host (30 R80, 60 R210). -/
inductive Event where
  /-- `TX(rid, body)`: the body's bytes, and the address in the TX buffer where the body begins (30 R75 `EVOFF`). -/
  | tx (rid : Byte) (off : Nat) (body : List Byte)
  /-- `FEATREQ(n)`. -/
  | featReq (n : Byte)
  /-- `USBRES`. -/
  | usbRes
  deriving DecidableEq, Repr

/-- What an operation answers: its result and at most one event (30 R75). `Response.word` gives the 32-bit word. -/
structure Response where
  status : Status
  event : Option Event
  deriving DecidableEq, Repr

/-- The value an internal sub-operation returns (00 R11 `return v`), kept when it is run on its own: the model's own (log 12). -/
inductive Ret where
  /-- Nothing returned: every host operation, and a sub-operation that returns no value or raised an error. -/
  | none
  /-- `NORM_STICK`, `NORM_TRIG`, `BATT`, `CLAMP8`. -/
  | byte (v : Byte)
  /-- `DETECT`: the new interface and whether the feature report is requested. -/
  | detect (new : Iface) (req : Bool)
  /-- `SLOT`: an entry, or none. -/
  | slot (e : Option Touch)
  /-- `ENCODE_USB`, `ENCODE_BT`: the report id and the body. -/
  | frame (rid : Byte) (body : List Byte)
  /-- `CRC32`. -/
  | crc (c : BitVec 32)
  deriving DecidableEq, Repr

/-- What the host does at the ports, one action a step (30 R85; log 3, 13). -/
inductive Action where
  /-- The `reset` input (70 R230). -/
  | reset
  /-- One write at the RX write port (30 R85). -/
  | rxWrite (a : BitVec 7) (d : Byte)
  /-- One read at the TX read port (30 R85). -/
  | txRead (a : BitVec 7)
  /-- One read at the register read port (30 R85, 10 R36). -/
  | regRead (a : BitVec 6)
  /-- One command word presented at `CMD`, with the timestamp driven on `TS_IN` (30 R71): the only way to run an operation (00 R6). -/
  | present (w : CmdWord) (ts : Stamp)
  deriving DecidableEq, Repr

/-- The state: everything spec 10 gives the block, the values at its ports (30 R85), and three fields of the model's own. -/
@[ext]
structure State where
  /-- `IFACE` (10 R21). -/
  iface : Iface
  /-- ControllerState (10 R22). -/
  ctl : Controller
  /-- RumbleState (10 R32). -/
  rumble : Rumble
  /-- LightbarState (10 R33). -/
  lightbar : Lightbar
  /-- The input report buffer `RX` (20 R50). -/
  rx : Memory
  /-- The output frame buffer `TX` (20 R50). -/
  tx : Memory
  /-- The value on `TS_IN` (30 R71). -/
  tsIn : Stamp
  /-- The response of the last operation, `RSP` (30 R75); none before the first and after the `reset` input (log 11). -/
  rsp : Option Response
  /-- The data on the TX read port (30 R85). -/
  txOut : Byte
  /-- The data on the register read port (30 R85). -/
  regOut : Byte
  /-- The model's own: what the last sub-operation run on its own returned (log 12). -/
  ret : Ret
  /-- The model's own: what the host does next, oldest first (log 3). -/
  input : List Action
  /-- The model's own: an internal sub-operation, with its operand bytes, that the next step runs on its own. None at reset, and no
  host action sets it, so a host reaches these operations only through the first nine (00 R6; log 1). -/
  call : Option (SubOp × List Byte)
  deriving DecidableEq, Repr

/-- ControllerState after reset (10 R38; all values are the spec's decision D11, log 4). -/
def Controller.zero : Controller :=
  { stick := #v[0, 0, 0, 0], trig := #v[0, 0], gyro := #v[0, 0, 0], accel := #v[0, 0, 0], btn := 0, battery := 0,
    charging := false, touchN := 0, touch := #v[Touch.zero, Touch.zero], timestamp := 0 }

/-- The machine right after reset (10 R38): idle, nothing presented (70 R232), nothing listed in either buffer. -/
def State.reset : State :=
  { iface := .disc, ctl := Controller.zero, rumble := { light := 0, heavy := 0 }, lightbar := { r := 0, g := 0, b := 0 },
    rx := [], tx := [], tsIn := 0, rsp := none, txOut := 0, regOut := 0, ret := .none, input := [], call := none }

/-- Why the machine stops with a fault. No operation of the block faults: its errors are results (60 R200). -/
inductive Fault where
  /-- Raised by a read of the TX read port at an address 79..127: the TX space has the addresses 0..78 only (10 R35). Safe: the
  model stops where the spec gives no value (log 14). -/
  | txAddress (a : BitVec 7)
  deriving DecidableEq, Repr

/-- Why the machine gives a step no meaning. -/
inductive Refusal where
  /-- Raised by an arm of `exec` whose operation has no meaning yet; no arm raises it now. Safe. -/
  | notModelled (mnemonic : String)
  /-- Raised when the field `call` holds an internal sub-operation with bytes that are no operand of it (`IFACE` 3 among them, which
  93 U4 refuses); no run from reset gets there. Safe: the model stops, and the hardware has no such move (log 15). -/
  | badOperand (why : Reject)
  deriving DecidableEq, Repr

end Sys2Proof.Machine
end

