-- ==== Sys2Proof/Machine/Ops.lean ====
section
/-! DEFINITION. The named operations over the buffers and the registers: reading and writing RX and TX (20), completing an
operation, delivering an error (60 R205), and reset (70 R231). -/

namespace Sys2Proof.Machine

/-- What an unlisted address of a buffer reads as: no byte has been written there (20 R55, R56; 93 U3). A read at the
block's or the host's side then gives the buffer's free value. -/
def Memory.unlisted : Option Byte := none

/-- The byte written last at `a`. -/
def Memory.get : Memory → Nat → Option Byte
  | [], _ => Memory.unlisted
  | (k, b) :: m, a => if k = a then some b else Memory.get m a

/-- The bytes `bs` at the addresses from `a` up. -/
def Memory.cells : Nat → List Byte → Memory
  | _, [] => []
  | a, b :: bs => (a, b) :: Memory.cells (a + 1) bs

/-- The bytes `bs` written from address `a` up: what lies below, the bytes, what lies above. -/
def Memory.store (m : Memory) (a : Nat) (bs : List Byte) : Memory :=
  m.filter (fun p => decide (p.1 < a)) ++ Memory.cells a bs ++ m.filter (fun p => decide (a + bs.length ≤ p.1))

/-- The canonical form of a buffer of `size` bytes: addresses strictly rising and below `size`. No listed byte can equal what
an unlisted address reads as, which is no byte. -/
abbrev Memory.wf (size : Nat) (m : Memory) : Prop :=
  m.Pairwise (fun p q => p.1 < q.1) ∧ ∀ p ∈ m, p.1 < size

/-- `MemRead(RX, a, 1)` (20 R51); stale bytes stay readable (20 R55), bytes nobody wrote are free values (log 5). -/
def State.rxByte (s : State) (a : Nat) : Byte := (s.rx.get a).getD (Config.rxPowerUp a)

/-- The byte of TX at `a`, as the host reads it (20 R56); bytes nobody wrote are free values (log 6). -/
def State.txByte (s : State) (a : Nat) : Byte := (s.tx.get a).getD (Config.txPowerUp a)

/-- The host's write of RX (20 R55): a byte at `RXCAP` or above is not stored (log 16). -/
def State.writeRx (c : Config) (a : Nat) (d : Byte) (s : State) : State :=
  if a < c.rxCap then { s with rx := s.rx.store a [d] } else s

/-- The frame `f` written to TX from address 0 (20 R52, R56). -/
def State.writeTx (f : List Byte) (s : State) : State := { s with tx := s.tx.store 0 f }

/-- `return OK` with at most one event (30 R75). -/
def State.complete (ev : Option Event) (s : State) : State :=
  { s with rsp := some { status := .ok, event := ev }, ret := .none }

/-- A sub-operation run on its own returns `v` (00 R11; log 12). -/
def State.answer (v : Ret) (s : State) : State :=
  { s with rsp := some { status := .ok, event := none }, ret := v }

/-- `raise E` (60 R205), which takes the place of trap entry: the response carries the error and no event; nothing is saved,
nothing else changes. -/
def State.raise (e : Status) (s : State) : State :=
  { s with rsp := some { status := e, event := none }, ret := .none }

/-- Connection start (70 R231, 10 R38): every register to its reset value; RX and TX are not cleared (log 7). -/
def State.resetRegs (s : State) : State :=
  { s with iface := .disc, ctl := Controller.zero, rumble := { light := 0, heavy := 0 },
           lightbar := { r := 0, g := 0, b := 0 } }

end Sys2Proof.Machine
end

