-- ==== Sys2Proof/Machine/Operands.lean ====
section
/-! DEFINITION. How operands are put together from bits (spec 30 R81, 00 R10): the forms in which operations read the report
and their arguments. -/

namespace Sys2Proof.Machine

/-- `clamp(lo, hi, v)` (00 R10). -/
def clampInt (lo hi v : Int) : Int := if v < lo then lo else if hi < v then hi else v

/-- The raw address of view offset 0 (20 R58): the Bluetooth strip or nothing. -/
def viewBase : Iface → Nat
  | .bt => btStrip
  | .usb => 0
  | .disc => 0

/-- The view of the report in RX: `V[o]` is `RX[base + o]` (20 R58). -/
def State.rxView (s : State) (base : Nat) : View := fun o => s.rxByte (base + o)

/-- The view whose bytes are `l`; only used at offsets inside `l` (20 R63). -/
def listView (l : List Byte) : View := fun o => l.getD o 0

/-- `u16le(V, o)` (30 R81 a, 20 R51). The accelerometer reads the same pattern as two's complement, by `BitVec.toInt`. -/
def u16le (v : View) (o : Nat) : BitVec 16 := v (o + 1) ++ v o

/-- Touch `id` (30 R81 d). -/
def touchId (b0 : Byte) : BitVec 7 := b0.extractLsb' 0 7

/-- Touch `x` (30 R81 b). -/
def touchX (b1 b2 : Byte) : BitVec 12 := b2.extractLsb' 0 4 ++ b1

/-- Touch `y` (30 R81 c). -/
def touchY (b2 b3 : Byte) : BitVec 12 := b3 ++ b2.extractLsb' 4 4

/-- The D-pad code `V[4][3:0]` (30 R81 e). -/
def dpadCode (b4 : Byte) : BitVec 4 := b4.extractLsb' 0 4

/-- The battery nibble `V[29][3:0]` (30 R81 e). -/
def batteryNibble (b29 : Byte) : BitVec 4 := b29.extractLsb' 0 4

/-- `VAL = sint_32(ARG)` (30 R74). -/
def setterValue (arg : BitVec 32) : Int := arg.toInt

/-- `LEN`, zero-extended (30 R81 h). -/
def rawLen (len : BitVec 16) : Nat := len.toNat

end Sys2Proof.Machine
end

