-- ==== Sys2Proof/Machine/Flags.lean ====
section
/-! DEFINITION. The flags of the spec. The block has no condition codes (10 R26); its flags are the 18 bits of `BTN` (10 R28), the
charging flag and the inactive flag of a touch slot, all read from the report (30 R77). -/

namespace Sys2Proof.Machine

/-- `dpad_up`: codes 7, 0 and 1 (41 R124). -/
def dpadUp (d : BitVec 4) : Bool := d.toNat = 7 ∨ d.toNat = 0 ∨ d.toNat = 1

/-- `dpad_right`: codes 1 to 3 (41 R124). -/
def dpadRight (d : BitVec 4) : Bool := 1 ≤ d.toNat ∧ d.toNat ≤ 3

/-- `dpad_down`: codes 3 to 5 (41 R124). -/
def dpadDown (d : BitVec 4) : Bool := 3 ≤ d.toNat ∧ d.toNat ≤ 5

/-- `dpad_left`: codes 5 to 7 (41 R124). -/
def dpadLeft (d : BitVec 4) : Bool := 5 ≤ d.toNat ∧ d.toNat ≤ 7

/-- `BTN[7:4]`: left, down, right, up from the high bit down (10 R28). -/
def dpadFlags (d : BitVec 4) : BitVec 4 :=
  BitVec.ofBool (dpadLeft d) ++ BitVec.ofBool (dpadDown d) ++ BitVec.ofBool (dpadRight d) ++ BitVec.ofBool (dpadUp d)

/-- `BTN[3:0]`: square, cross, circle, triangle from the high bit down (10 R28), from bits 4 to 7 of view byte 4 (41 R122). -/
def faceFlags (b4 : Byte) : BitVec 4 :=
  BitVec.ofBool (b4.getLsbD 4) ++ BitVec.ofBool (b4.getLsbD 5) ++ BitVec.ofBool (b4.getLsbD 6) ++
    BitVec.ofBool (b4.getLsbD 7)

/-- `BTN` from view bytes 4, 5 and 6 (41 R122 to R126). -/
def buttons (b4 b5 b6 : Byte) : BitVec 18 :=
  b6.extractLsb' 0 2 ++ b5 ++ dpadFlags (dpadCode b4) ++ faceFlags b4

/-- `CHARGING`, bit 4 of view byte 29 (41 R130). -/
def chargingFlag (b29 : Byte) : Bool := b29.getLsbD 4

/-- The inactive flag of a touch slot, bit 7 of its first byte (30 R77, 41 R132). -/
def slotInactive (b0 : Byte) : Bool := b0.getLsbD 7

end Sys2Proof.Machine
end

