-- ==== Sys2Proof/Machine/Decoder.lean ====
section
/-! DEFINITION. The report decoder (spec 41): `DECODE`, `NORM_STICK`, `NORM_TRIG`, `BATT`, `SLOT`. -/

namespace Sys2Proof.Machine

/-- `NORM_STICK` (41 R121): the deviation from 128, collapsed to 0 strictly below the dead zone, in 8-bit two's complement. -/
def normStick (c : Config) (raw : Byte) : Byte :=
  let s : Int := (raw.toNat : Int) - 128
  BitVec.ofInt 8 (if s.natAbs < c.stickDz then 0 else clampInt (-128) 128 s)

/-- `NORM_TRIG` (41 R127): the lower bound of the clamp is the dead zone itself. -/
def normTrig (c : Config) (raw : Byte) : Byte := BitVec.ofNat 8 (min 255 (max c.trigDz raw.toNat))

/-- `BATT(n, c)` (41 R131): not clamped while charging. -/
def batt (n : BitVec 4) (charging : Bool) : Byte :=
  BitVec.ofNat 8 (if charging then n.toNat * 100 / 11 else min 100 (n.toNat * 100 / 8))

/-- `SLOT` of the four bytes of a touch slot (41 R132). -/
def slot (b0 b1 b2 b3 : Byte) : Option Touch :=
  if slotInactive b0 then none else some { id := touchId b0, x := touchX b1 b2, y := touchY b2 b3 }

/-- `SLOT(V, b)` (41 R132). -/
def slotAt (v : View) (b : Nat) : Option Touch := slot (v b) (v (b + 1)) (v (b + 2)) (v (b + 3))

/-- The touch sequence (41 R133): slot 0, then slot 1, leaving out whichever is none. -/
def touchSeq (v : View) : List Touch := (slotAt v 34).toList ++ (slotAt v 38).toList

/-- The registers `DECODE` writes (41 R120), from the view `v`; `TIMESTAMP` becomes `ts`. -/
def decodeView (c : Config) (v : View) (ts : Stamp) : Controller :=
  { stick := #v[normStick c (v 0), normStick c (v 1), normStick c (v 2), normStick c (v 3)]
    trig := #v[normTrig c (v 7), normTrig c (v 8)]
    gyro := #v[u16le v 13, u16le v 15, u16le v 17]
    accel := #v[u16le v 19, u16le v 21, u16le v 23]
    btn := buttons (v 4) (v 5) (v 6)
    battery := batt (batteryNibble (v 29)) (chargingFlag (v 29))
    charging := chargingFlag (v 29)
    touchN := BitVec.ofNat 2 (touchSeq v).length
    touch := #v[(touchSeq v).getD 0 Touch.zero, (touchSeq v).getD 1 Touch.zero]
    timestamp := ts }

/-- `DECODE(V)` on its own (41 R120): the precondition first (41 R137), then the length (20 R63), then every register of the
decoder; `TIMESTAMP` is `RXR`'s to write. -/
def decodeOp (c : Config) (view : List Byte) (s : State) : State :=
  if s.iface = .disc then s.raise .ePrecond
  else if view.length < minViewLen then s.raise .eBounds
  else State.complete none { s with ctl := decodeView c (listView view) s.ctl.timestamp }

/-- `DECODE` (41 R120). -/
def execDecode (view : List Byte) (s : State) : Host.Outcome State Fault Refusal := .next (decodeOp hw view s)

/-- `NORM_STICK` (41 R121) run on its own. -/
def execNormStick (raw : Byte) (s : State) : Host.Outcome State Fault Refusal :=
  .next (s.answer (.byte (normStick hw raw)))

/-- `NORM_TRIG` (41 R127) run on its own. -/
def execNormTrig (raw : Byte) (s : State) : Host.Outcome State Fault Refusal :=
  .next (s.answer (.byte (normTrig hw raw)))

/-- `BATT` (41 R131) run on its own. -/
def execBatt (n : BitVec 4) (c : Bool) (s : State) : Host.Outcome State Fault Refusal :=
  .next (s.answer (.byte (batt n c)))

/-- `SLOT` (41 R132) run on its own. -/
def execSlot (b0 b1 b2 b3 : Byte) (s : State) : Host.Outcome State Fault Refusal :=
  .next (s.answer (.slot (slot b0 b1 b2 b3)))

end Sys2Proof.Machine
end

