-- ==== Sys2Proof/Machine/Detector.lean ====
section
/-! DEFINITION. The transport detector and report delivery (spec 40): `NOP`, `RXR`, `DETECT`; and `RST` (70 R231). -/

namespace Sys2Proof.Machine

/-- `DETECT(rawLength, cur)` (40 R101): the new interface, and whether the feature report must be requested. -/
def detect (rawLength : Nat) (cur : Iface) : Iface × Bool :=
  match cur with
  | .disc => if rawLength = usbFirstLen then (.usb, false) else (.bt, true)
  | .usb => (.usb, false)
  | .bt => (.bt, false)

/-- The event of a report that was decoded (40 R103, R104): `before` is the interface before the operation, `now` after
detection. -/
def reportEvent (before now : Iface) : Option Event :=
  match before, now with
  | .disc, .usb => some .usbRes
  | _, .bt => some (.featReq featureReportId)
  | _, _ => none

/-- `RXR(LEN, RID, TS)` (40 R100): `RID` plays no part. The writes of the operation take effect together (00 R11). -/
def receive (c : Config) (len : BitVec 16) (s : State) : State :=
  let d := detect (rawLen len) s.iface
  if d.2 then State.complete (some (.featReq featureReportId)) { s with iface := d.1 }
  else if rawLen len < viewBase d.1 + minViewLen then s.raise .eBounds
  else State.complete (reportEvent s.iface d.1)
    { s with iface := d.1, ctl := decodeView c (s.rxView (viewBase d.1)) s.tsIn }

/-- `NOP` (40 R107). -/
def execNop (_arg : BitVec 32) (s : State) : Host.Outcome State Fault Refusal := .next (s.complete none)

/-- `RST` (70 R231). -/
def execRst (_arg : BitVec 32) (s : State) : Host.Outcome State Fault Refusal := .next (s.resetRegs.complete none)

/-- `RXR` (40 R100). -/
def execRxr (len : BitVec 16) (_rid : Byte) (s : State) : Host.Outcome State Fault Refusal := .next (receive hw len s)

/-- `DETECT` (40 R101) run on its own: it writes nothing, `IFACE` neither. -/
def execDetect (rawLength : Nat) (cur : Iface) (s : State) : Host.Outcome State Fault Refusal :=
  .next (s.answer (.detect (detect rawLength cur).1 (detect rawLength cur).2))

end Sys2Proof.Machine
end

