-- ==== Sys2Proof/Machine/Encoder.lean ====
section
/-! DEFINITION. The setters and the report encoder (spec 42): `CLAMP8`, `SRL`, `SRH`, `SLR`, `SLG`, `SLB`, `SEND`, `ENC`,
`ENCODE_USB`, `ENCODE_BT`. -/

namespace Sys2Proof.Machine

/-- `CLAMP8(VAL)` (42 R160): the comparison is signed; a value in 0..255 is kept (42 R174 a). -/
def clamp8 (arg : BitVec 32) : Byte := BitVec.ofInt 8 (clampInt 0 255 (setterValue arg))

/-- The USB frame `TX[0..15]` (42 R166, 30 R78, 42 R174 b). -/
def frameUsb (c : Config) (m : Rumble) (l : Lightbar) : List Byte :=
  [usbOutRid, c.usbFlags, 0, 0, m.light, m.heavy, l.r, l.g, l.b] ++ List.replicate 7 0

/-- The Bluetooth frame before its trailer, `TX[0..74]` (42 R167, 30 R79): zeros, then each named byte in the rule's order
(42 R174 c). -/
def frameBtHead (c : Config) (m : Rumble) (l : Lightbar) : List Byte :=
  ((((((((List.replicate 75 0).set 0 btOutHdr).set 1 btOutRid).set c.btPollOff c.btPollVal).set c.btFlagsOff
    c.btFlagsVal).set c.btLightOff m.light).set c.btHeavyOff m.heavy).set c.btROff l.r).set c.btGOff l.g
    |>.set c.btBOff l.b

/-- The four trailer bytes of the checksum `x` (43 R193): the order is a parameter. -/
def trailer (c : Config) (x : BitVec 32) : List Byte :=
  if c.btCrcLsbFirst then [x.extractLsb' 0 8, x.extractLsb' 8 8, x.extractLsb' 16 8, x.extractLsb' 24 8]
  else [x.extractLsb' 24 8, x.extractLsb' 16 8, x.extractLsb' 8 8, x.extractLsb' 0 8]

/-- The Bluetooth frame `TX[0..78]` (42 R167): the checksum covers the pre-header (42 R174 d, e). -/
def frameBt (c : Config) (m : Rumble) (l : Lightbar) : List Byte :=
  frameBtHead c m l ++ trailer c (crc32 c (frameBtHead c m l))

/-- `ENCODE_USB()` (42 R166): it writes `TX[0..15]`. -/
def encodeUsb (c : Config) (s : State) : State := s.writeTx (frameUsb c s.rumble s.lightbar)

/-- `ENCODE_BT()` (42 R167): it writes `TX[0..78]`. -/
def encodeBt (c : Config) (s : State) : State := s.writeTx (frameBt c s.rumble s.lightbar)

/-- The bytes `TX[off .. off + n - 1]`, as the event names them (30 R75, R80). -/
def State.txSlice (s : State) (off n : Nat) : List Byte := (List.range n).map fun k => s.txByte (off + k)

/-- The body of the USB frame in TX, `TX[1..15]` (42 R169). -/
def usbBody (s : State) : List Byte := s.txSlice 1 (usbOutLen - 1)

/-- The body of the Bluetooth frame in TX, `TX[2..78]` (42 R169). -/
def btBody (s : State) : List Byte := s.txSlice btStrip (btOutLen - btStrip)

/-- `SEND()` (42 R169), the tail of the setters and of `ENC`; it changes no register (42 R174 f). -/
def send (c : Config) (s : State) : State :=
  match s.iface with
  | .disc => s.raise .ePrecond
  | .usb => State.complete (some (.tx usbOutRid 1 (usbBody (encodeUsb c s)))) (encodeUsb c s)
  | .bt => State.complete (some (.tx btOutRid btStrip (btBody (encodeBt c s)))) (encodeBt c s)

/-- `SRL` (42 R161): the write stands even if `SEND` raises (42 R173). -/
def execSrl (val : BitVec 32) (s : State) : Host.Outcome State Fault Refusal :=
  .next (send hw { s with rumble := { s.rumble with light := clamp8 val } })

/-- `SRH` (42 R162). -/
def execSrh (val : BitVec 32) (s : State) : Host.Outcome State Fault Refusal :=
  .next (send hw { s with rumble := { s.rumble with heavy := clamp8 val } })

/-- `SLR` (42 R163). -/
def execSlr (val : BitVec 32) (s : State) : Host.Outcome State Fault Refusal :=
  .next (send hw { s with lightbar := { s.lightbar with r := clamp8 val } })

/-- `SLG` (42 R164). -/
def execSlg (val : BitVec 32) (s : State) : Host.Outcome State Fault Refusal :=
  .next (send hw { s with lightbar := { s.lightbar with g := clamp8 val } })

/-- `SLB` (42 R165). -/
def execSlb (val : BitVec 32) (s : State) : Host.Outcome State Fault Refusal :=
  .next (send hw { s with lightbar := { s.lightbar with b := clamp8 val } })

/-- `ENC` (42 R168). -/
def execEnc (_arg : BitVec 32) (s : State) : Host.Outcome State Fault Refusal := .next (send hw s)

/-- `SEND` (42 R169) run on its own. -/
def execSend (s : State) : Host.Outcome State Fault Refusal := .next (send hw s)

/-- `CLAMP8` (42 R160) run on its own. -/
def execClamp8 (v : BitVec 32) (s : State) : Host.Outcome State Fault Refusal := .next (s.answer (.byte (clamp8 v)))

/-- `ENCODE_USB` (42 R166) run on its own: the frame is built and no event is emitted, which is `SEND`'s to do. -/
def execEncodeUsb (s : State) : Host.Outcome State Fault Refusal :=
  .next ((encodeUsb hw s).answer (.frame usbOutRid (usbBody (encodeUsb hw s))))

/-- `ENCODE_BT` (42 R167) run on its own. -/
def execEncodeBt (s : State) : Host.Outcome State Fault Refusal :=
  .next ((encodeBt hw s).answer (.frame btOutRid (btBody (encodeBt hw s))))

end Sys2Proof.Machine
end

