-- ==== Sys2Proof/Machine/Dispatch.lean ====
section
/-! DEFINITION. One arm per operation: the meaning each has. -/

namespace Sys2Proof.Machine

def exec (i : Instr) (s : State) : Host.Outcome State Fault Refusal :=
  match i with
  -- the detector, reset and report delivery (40, 70)
  | .nop arg => Sys2Proof.Machine.execNop arg s
  | .rst arg => Sys2Proof.Machine.execRst arg s
  | .rxr len rid => Sys2Proof.Machine.execRxr len rid s
  -- the setters and the resend (42)
  | .srl val => Sys2Proof.Machine.execSrl val s
  | .srh val => Sys2Proof.Machine.execSrh val s
  | .slr val => Sys2Proof.Machine.execSlr val s
  | .slg val => Sys2Proof.Machine.execSlg val s
  | .slb val => Sys2Proof.Machine.execSlb val s
  | .enc arg => Sys2Proof.Machine.execEnc arg s
  -- the internal sub-operations, each run on its own
  | .decode view => Sys2Proof.Machine.execDecode view s
  | .detect rawLength cur => Sys2Proof.Machine.execDetect rawLength cur s
  | .normStick raw => Sys2Proof.Machine.execNormStick raw s
  | .normTrig raw => Sys2Proof.Machine.execNormTrig raw s
  | .batt n c => Sys2Proof.Machine.execBatt n c s
  | .slot b0 b1 b2 b3 => Sys2Proof.Machine.execSlot b0 b1 b2 b3 s
  | .clamp8 v => Sys2Proof.Machine.execClamp8 v s
  | .send => Sys2Proof.Machine.execSend s
  | .encodeUsb => Sys2Proof.Machine.execEncodeUsb s
  | .encodeBt => Sys2Proof.Machine.execEncodeBt s
  | .crc32 m => Sys2Proof.Machine.execCrc32 m s

end Sys2Proof.Machine
end

