-- ==== Sys2Proof/WellFormed.lean ====
section
/-! DEFINITION. The well-formed operations: those whose operands fit the fields the spec gives them. -/

namespace Sys2Proof

/-- Only `DETECT` has an operand whose Lean type is wider than its field: `rawLength` is an integer in 40 R101 and 16 bits
in the opcode table, as `LEN` is in 30 R73. A view or a message may have any length (41 R120, 43 R190). -/
def Instr.wf : Instr → Bool
  | .detect rawLength _ => decide (rawLength < 65536)
  | .nop _ => true
  | .rst _ => true
  | .rxr _ _ => true
  | .srl _ => true
  | .srh _ => true
  | .slr _ => true
  | .slg _ => true
  | .slb _ => true
  | .enc _ => true
  | .decode _ => true
  | .normStick _ => true
  | .normTrig _ => true
  | .batt _ _ => true
  | .slot _ _ _ _ => true
  | .clamp8 _ => true
  | .send => true
  | .encodeUsb => true
  | .encodeBt => true
  | .crc32 _ => true

end Sys2Proof
end

