-- ==== Sys2Proof/Decode.lean ====
section
/-! DEFINITION. From words to an operation, total, rejecting by name; the encoder; and the host's entry
`decodeTableWord`. Command words follow 30 R71 to R74 and R82. -/

namespace Sys2Proof

/-- `OP = CMD[39:32]` (30 R71). -/
def cmdOp (w : CmdWord) : Byte := w.extractLsb' 32 8

/-- `ARG = CMD[31:0]` (30 R71). -/
def cmdArg (w : CmdWord) : BitVec 32 := w.extractLsb' 0 32

/-- The command word with opcode `op` and operand `arg` (30 R71). -/
def cmdWord (op : Byte) (arg : BitVec 32) : CmdWord := op ++ arg

/-- The opcode map of 30 R72, and what 30 R82 (a) calls illegal. -/
def decodeCmd (w : CmdWord) : Except Reject Instr :=
  let arg := cmdArg w
  match (cmdOp w).toNat with
  | 0x00 => .ok (.nop arg)
  | 0x01 => .ok (.rst arg)
  | 0x02 =>
    if arg.extractLsb' 24 8 = 0 then .ok (.rxr (arg.extractLsb' 0 16) (arg.extractLsb' 16 8))
    else .error (.rxrHighByte (arg.extractLsb' 24 8))
  | 0x10 => .ok (.srl arg)
  | 0x11 => .ok (.srh arg)
  | 0x12 => .ok (.slr arg)
  | 0x13 => .ok (.slg arg)
  | 0x14 => .ok (.slb arg)
  | 0x20 => .ok (.enc arg)
  | _ => .error (.unknownOp (cmdOp w))

/-- The 2-bit encoding of `IFACE` (10 R21, 92 D2). -/
def Iface.bits : Iface → BitVec 2
  | .disc => 0
  | .usb => 1
  | .bt => 2

/-- The transport a 2-bit value names; 3 names none (10 R21). -/
def Iface.ofBits (b : BitVec 2) : Option Iface :=
  match b.toNat with
  | 0 => some .disc
  | 1 => some .usb
  | 2 => some .bt
  | _ => none

/-- The operation a call names. Operands that the opcode table gives as a pattern of bits are read as one number from
bytes lowest first; those it gives as bytes are read in order of their offsets (DESIGN CHOICE, log 2). -/
def decodeCall (op : SubOp) (operand : List Byte) : Except Reject Instr :=
  match op, operand with
  | .decode, v => .ok (.decode v)
  | .detect, [b0, b1, b2] =>
    let n : BitVec 24 := b2 ++ b1 ++ b0
    if n.extractLsb' 18 6 = 0 then
      match Iface.ofBits (n.extractLsb' 0 2) with
      | some cur => .ok (.detect (n.extractLsb' 2 16).toNat cur)
      | none => .error .ifaceThree
    else .error (.operandShape .detect)
  | .normStick, [b] => .ok (.normStick b)
  | .normTrig, [b] => .ok (.normTrig b)
  | .batt, [b] =>
    if b.extractLsb' 5 3 = 0 then .ok (.batt (b.extractLsb' 0 4) (b.getLsbD 4))
    else .error (.operandShape .batt)
  | .slot, [b0, b1, b2, b3] => .ok (.slot b0 b1 b2 b3)
  | .clamp8, [b0, b1, b2, b3] => .ok (.clamp8 (b3 ++ b2 ++ b1 ++ b0))
  | .send, [] => .ok .send
  | .encodeUsb, [] => .ok .encodeUsb
  | .encodeBt, [] => .ok .encodeBt
  | .crc32, m => .ok (.crc32 m)
  | op, _ => .error (.operandShape op)

/-- The decoder, total on any words. -/
def decode : Words → Except Reject Instr
  | .cmd w => decodeCmd w
  | .call op operand => decodeCall op operand

/-- The four bytes of a 32-bit value, least significant first. -/
def bytesOf32 (v : BitVec 32) : List Byte :=
  [v.extractLsb' 0 8, v.extractLsb' 8 8, v.extractLsb' 16 8, v.extractLsb' 24 8]

/-- The 18 bits of `DETECT`'s row, `llllllllllllllllcc`, in three bytes, lowest first. -/
def detectBytes (rawLength : Nat) (cur : Iface) : List Byte :=
  let n : BitVec 24 := (0 : BitVec 6) ++ BitVec.ofNat 16 rawLength ++ cur.bits
  [n.extractLsb' 0 8, n.extractLsb' 8 8, n.extractLsb' 16 8]

/-- The five bits of `BATT`'s row, `Cnnnn`, in one byte. -/
def battByte (n : BitVec 4) (c : Bool) : Byte := (0 : BitVec 3) ++ BitVec.ofBool c ++ n

/-- The command word of `RXR` (30 R73). -/
def rxrWord (len : BitVec 16) (rid : Byte) : CmdWord := cmdWord 0x02 ((0 : Byte) ++ rid ++ len)

/-- The words of an operation, written from 30 R72 and the rows of the opcode table. -/
def encode : Instr → Words
  | .nop arg => .cmd (cmdWord 0x00 arg)
  | .rst arg => .cmd (cmdWord 0x01 arg)
  | .rxr len rid => .cmd (rxrWord len rid)
  | .srl val => .cmd (cmdWord 0x10 val)
  | .srh val => .cmd (cmdWord 0x11 val)
  | .slr val => .cmd (cmdWord 0x12 val)
  | .slg val => .cmd (cmdWord 0x13 val)
  | .slb val => .cmd (cmdWord 0x14 val)
  | .enc arg => .cmd (cmdWord 0x20 arg)
  | .decode view => .call .decode view
  | .detect rawLength cur => .call .detect (detectBytes rawLength cur)
  | .normStick raw => .call .normStick [raw]
  | .normTrig raw => .call .normTrig [raw]
  | .batt n c => .call .batt [battByte n c]
  | .slot b0 b1 b2 b3 => .call .slot [b0, b1, b2, b3]
  | .clamp8 v => .call .clamp8 (bytesOf32 v)
  | .send => .call .send []
  | .encodeUsb => .call .encodeUsb []
  | .encodeBt => .call .encodeBt []
  | .crc32 m => .call .crc32 m

/-- The first `k` bytes of the number `w`, lowest first. -/
def lowBytes : Nat → Nat → List Byte
  | 0, _ => []
  | k + 1, w => BitVec.ofNat 8 w :: lowBytes k (w / 256)

/-- The words the opcode table's numbering calls `w` on `nbits` bits. 40 bits, and any width no other row has, is the
command word. A row of another width is told by its width; of the rows that share 8 bits (`NORM_STICK`, `NORM_TRIG`, `BATT`,
`SEND`) and 32 bits (`SLOT`, `CLAMP8`) the first in table order is taken, since nothing in the bits tells them apart
(DESIGN CHOICE, log 2). The rows of `ENCODE_USB` and `ENCODE_BT` show the frame they build, not an operand. -/
def tableWords (nbits w : Nat) : Words :=
  match nbits with
  | 2 => .call .send []
  | 5 => .call .batt (lowBytes 1 w)
  | 8 => .call .normStick (lowBytes 1 w)
  | 18 => .call .detect (lowBytes 3 w)
  | 24 => .call .detect (lowBytes 3 w)
  | 32 => .call .slot (lowBytes 4 w)
  | 128 => .call .encodeUsb []
  | 336 => .call .decode (lowBytes 42 w)
  | 600 => .call .crc32 (lowBytes 75 w)
  | 632 => .call .encodeBt []
  | _ => .cmd (BitVec.ofNat 40 w)

/-- What the decoder reads from the table's bits `w`. -/
def decodeTableWord (nbits w : Nat) : Option Instr :=
  match decode (tableWords nbits w) with
  | .ok i => some i
  | .error _ => none

end Sys2Proof
end

