-- ==== Sys2Proof/Machine/ReadMap.lean ====
section
/-! DEFINITION. The register read map (spec 10 R36): 64 read-only bytes computed from the registers. -/

namespace Sys2Proof.Machine

/-- Byte `k` of a register, low byte first; bits above the register read 0 (10 R36). -/
def byteOf {n : Nat} (v : BitVec n) (k : Nat) : Byte := v.extractLsb' (8 * k) 8

/-- The byte at address `a` of the map, row by row of 10 R36; reserved and unlisted addresses read 0. -/
def State.regByte (s : State) (a : BitVec 6) : Byte :=
  match a.toNat with
  | 0x00 => s.iface.bits.setWidth 8
  | 0x01 => s.ctl.battery
  | 0x02 => (BitVec.ofBool s.ctl.charging).setWidth 8
  | 0x03 => s.ctl.touchN.setWidth 8
  | 0x04 => s.ctl.stick[0]
  | 0x05 => s.ctl.stick[1]
  | 0x06 => s.ctl.stick[2]
  | 0x07 => s.ctl.stick[3]
  | 0x08 => s.ctl.trig[0]
  | 0x09 => s.ctl.trig[1]
  | 0x0A => byteOf s.ctl.gyro[0] 0
  | 0x0B => byteOf s.ctl.gyro[0] 1
  | 0x0C => byteOf s.ctl.gyro[1] 0
  | 0x0D => byteOf s.ctl.gyro[1] 1
  | 0x0E => byteOf s.ctl.gyro[2] 0
  | 0x0F => byteOf s.ctl.gyro[2] 1
  | 0x10 => byteOf s.ctl.accel[0] 0
  | 0x11 => byteOf s.ctl.accel[0] 1
  | 0x12 => byteOf s.ctl.accel[1] 0
  | 0x13 => byteOf s.ctl.accel[1] 1
  | 0x14 => byteOf s.ctl.accel[2] 0
  | 0x15 => byteOf s.ctl.accel[2] 1
  | 0x16 => byteOf s.ctl.btn 0
  | 0x17 => byteOf s.ctl.btn 1
  | 0x18 => byteOf s.ctl.btn 2
  | 0x1A => s.ctl.touch[0].id.setWidth 8
  | 0x1C => byteOf s.ctl.touch[0].x 0
  | 0x1D => byteOf s.ctl.touch[0].x 1
  | 0x1E => byteOf s.ctl.touch[0].y 0
  | 0x1F => byteOf s.ctl.touch[0].y 1
  | 0x20 => s.ctl.touch[1].id.setWidth 8
  | 0x22 => byteOf s.ctl.touch[1].x 0
  | 0x23 => byteOf s.ctl.touch[1].x 1
  | 0x24 => byteOf s.ctl.touch[1].y 0
  | 0x25 => byteOf s.ctl.touch[1].y 1
  | 0x28 => byteOf s.ctl.timestamp 0
  | 0x29 => byteOf s.ctl.timestamp 1
  | 0x2A => byteOf s.ctl.timestamp 2
  | 0x2B => byteOf s.ctl.timestamp 3
  | 0x2C => byteOf s.ctl.timestamp 4
  | 0x2D => byteOf s.ctl.timestamp 5
  | 0x2E => byteOf s.ctl.timestamp 6
  | 0x2F => byteOf s.ctl.timestamp 7
  | 0x30 => s.rumble.light
  | 0x31 => s.rumble.heavy
  | 0x32 => s.lightbar.r
  | 0x33 => s.lightbar.g
  | 0x34 => s.lightbar.b
  | _ => 0

end Sys2Proof.Machine
end

