-- ==== Sys2Proof/Machine/HostPorts.lean ====
section
/-! DEFINITION. What happens at the ports (spec 30 R85), and how a presented operation is fetched. -/

namespace Sys2Proof.Machine

/-- Between operations the block holds its state and waits for the host (70 R232, R241). -/
def idle (s : State) : State := s

/-- The `reset` input: the effect of `RST` on the registers (70 R230); it is no transaction, so no response stands (log 11). -/
def hostReset (s : State) : State := { s.resetRegs with rsp := none, ret := .none }

/-- A write at the RX write port (20 R55, 30 R85). -/
def hostRxWrite (c : Config) (a : BitVec 7) (d : Byte) (s : State) : State := s.writeRx c a.toNat d

/-- A read at the TX read port (20 R56, 30 R85); the space has no address above 78 (10 R35, log 14). -/
def hostTxRead (a : BitVec 7) (s : State) : Host.Outcome State Fault Refusal :=
  if a.toNat < btOutLen then .next { s with txOut := s.txByte a.toNat } else .fault (.txAddress a)

/-- A read at the register read port, without side effect (10 R36). -/
def hostRegRead (a : BitVec 6) (s : State) : State := { s with regOut := s.regByte a }

/-- The state in which an internal sub-operation runs on its own: taken from the field that held it (log 1). -/
def callTaken (s : State) : State := { s with call := none }

/-- The state in which a presented operation runs: it is taken from the host, and `TS_IN` carries `ts` (30 R71). -/
def sample (rest : List Action) (ts : Stamp) (s : State) : State := { s with input := rest, tsIn := ts }

/-- The action is taken from the host. -/
def taken (rest : List Action) (s : State) : State := { s with input := rest }

/-- A command word that encodes no operation completes with `E_ILLEGAL` and has no effect (60 R203). -/
def illegalCommand (_why : Reject) (s : State) : Host.Outcome State Fault Refusal := .next (s.raise .eIllegal)

/-- Bytes that are no operand of the sub-operation are refused (log 15). -/
def badCall (why : Reject) (_s : State) : Host.Outcome State Fault Refusal := .refused (.badOperand why)

/-- The words are next: the host presents a command word before anything else it had to do, with the timestamp that is on `TS_IN`; an
internal sub-operation is put where the next step runs it, which no host can do (log 1, 3). -/
def setNext (w : Words) (s : State) : State :=
  match w with
  | .cmd w => { s with input := .present w s.tsIn :: s.input, call := none }
  | .call op operand => { s with call := some (op, operand) }

/-- The host actions of the line `RXR len rid ts : bytes` (30 R84): the bytes into RX from address 0, those past the 128 addresses
of the write port left out (20 R55), then the command. -/
def deliverReport (bytes : List Byte) (len : BitVec 16) (rid : Byte) (ts : Stamp) : List Action :=
  ((bytes.take 128).zipIdx.map fun p => Action.rxWrite (BitVec.ofNat 7 p.2) p.1) ++
    [.present (rxrWord len rid) ts]

/-- `SRUM l, h` (30 R84). -/
def srum (l h : BitVec 32) (ts : Stamp) : List Action :=
  [.present (cmdWord 0x10 l) ts, .present (cmdWord 0x11 h) ts]

/-- `SRGB r, g, b` (30 R84). -/
def srgb (r g b : BitVec 32) (ts : Stamp) : List Action :=
  [.present (cmdWord 0x12 r) ts, .present (cmdWord 0x13 g) ts, .present (cmdWord 0x14 b) ts]

end Sys2Proof.Machine
end

