-- ==== Sys2Proof/Machine/Step.lean ====
section
/-! DEFINITION. One step: the next action of the host at the ports (spec 00 R5, 30 R85). -/

namespace Sys2Proof.Machine

/-- One step of the machine: the host's oldest action, or idling when there is none (log 3). A presented command word is decoded before
anything else is looked at (60 R206), and decodes to one of the nine host operations only (00 R6). A sub-operation that the model's
own field `call` holds is run first; from reset that field is always empty (log 1). -/
def step (s : State) : Host.Outcome State Fault Refusal :=
  match s.call with
  | some (op, operand) =>
    match decodeCall op operand with
    | .ok i => exec i (callTaken s)
    | .error why => badCall why (callTaken s)
  | none =>
    match s.input with
    | [] => .next (idle s)
    | .reset :: rest => .next (hostReset (taken rest s))
    | .rxWrite a d :: rest => .next (hostRxWrite hw a d (taken rest s))
    | .txRead a :: rest => hostTxRead a (taken rest s)
    | .regRead a :: rest => .next (hostRegRead a (taken rest s))
    | .present w ts :: rest =>
      match decodeCmd w with
      | .ok i => exec i (sample rest ts s)
      | .error why => illegalCommand why (sample rest ts s)

/-- The state in which the very next step runs the operation whose table bits are `w` (log 3). -/
def State.withFetchWord (s : State) (nbits w : Nat) : State := setNext (tableWords nbits w) s

end Sys2Proof.Machine
end

