-- ==== Sys2Proof/Machine/Response.lean ====
section
/-! DEFINITION. The 32-bit response word (spec 30 R75). -/

namespace Sys2Proof.Machine

/-- `STATUS` (60 R200). -/
def Status.code : Status → BitVec 2
  | .ok => 0
  | .ePrecond => 1
  | .eBounds => 2
  | .eIllegal => 3

/-- `EVK` (30 R75). -/
def Event.kind : Option Event → BitVec 2
  | none => 0
  | some (.tx _ _ _) => 1
  | some (.featReq _) => 2
  | some .usbRes => 3

/-- `EVID` (30 R75). -/
def Event.ident : Option Event → Byte
  | some (.tx rid _ _) => rid
  | some (.featReq n) => n
  | some .usbRes => 0
  | none => 0

/-- `EVLEN` (30 R75). -/
def Event.bodyLen : Option Event → BitVec 7
  | some (.tx _ _ body) => BitVec.ofNat 7 body.length
  | some (.featReq _) => 0
  | some .usbRes => 0
  | none => 0

/-- `EVOFF` (30 R75). -/
def Event.bodyOff : Option Event → BitVec 7
  | some (.tx _ off _) => BitVec.ofNat 7 off
  | some (.featReq _) => 0
  | some .usbRes => 0
  | none => 0

/-- The response word, from bit 31 down: 0, `EVOFF`, 0, `EVLEN`, `EVID`, four zero bits, `EVK`, `STATUS` (30 R75). -/
def Response.word (r : Response) : BitVec 32 :=
  (0 : BitVec 1) ++ Event.bodyOff r.event ++ (0 : BitVec 1) ++ Event.bodyLen r.event ++ Event.ident r.event ++
    (0 : BitVec 4) ++ Event.kind r.event ++ r.status.code

end Sys2Proof.Machine
end

