-- ==== Sys2Proof/Safety.lean ====
section
/-! DEFINITION. What holds of a good state (spec 10 R40), what an operation that sends must show (42 R169), and the counts over
runs that 40 R108 speaks of. The claims are stated in these terms. -/

namespace Sys2Proof.Safety

open Sys2Proof.Machine

/-- The values `BATTERY` can hold (10 R29). -/
def batteryValues : List Nat :=
  [0, 9, 12, 18, 25, 27, 36, 37, 45, 50, 54, 62, 63, 72, 75, 81, 87, 90, 100, 109, 118, 127, 136]

/-- 10 R40 (c) and the list of 10 R29. -/
def BatteryOk (k : Controller) : Prop :=
  k.battery.toNat ∈ batteryValues ∧ k.battery.toNat ≤ 136 ∧ (k.charging = false → k.battery.toNat ≤ 100)

/-- 10 R40 (b). -/
def TouchOk (k : Controller) : Prop :=
  k.touchN.toNat ≤ 2 ∧ ∀ j : Fin 2, k.touchN.toNat ≤ j.val → k.touch[j] = Touch.zero

/-- 10 R40 (f). -/
def DpadOk (k : Controller) : Prop :=
  ¬(k.btn.getLsbD 4 = true ∧ k.btn.getLsbD 6 = true) ∧ ¬(k.btn.getLsbD 5 = true ∧ k.btn.getLsbD 7 = true)

/-- 10 R40 (b), (c), (f) and (g). Part (a) is `IfaceChangesOnlyFromDisconnected`; (d) and (e) say nothing at dead zone 0
and are stated of the decoder for every dead zone. -/
structure Inv (s : State) : Prop where
  battery : BatteryOk s.ctl
  touch : TouchOk s.ctl
  dpad : DpadOk s.ctl
  fresh : s.iface = .disc → s.ctl = Controller.zero

/-- Both buffers are in canonical form and within their sizes (10 R35). -/
def BuffersOk (s : State) : Prop := s.rx.wf hw.rxCap ∧ s.tx.wf btOutLen

/-- The response words that occur (30 R80). -/
def responseWords : List (BitVec 32) :=
  [0x00000000, 0x0000000C, 0x00000208, 0x010F0504, 0x024D1104, 0x00000001, 0x00000002, 0x00000003]

/-- A standing response is one of the eight, and carries an event only with `OK` (30 R75, R80). -/
def ResponseOk (s : State) : Prop :=
  ∀ r, s.rsp = some r → r.word ∈ responseWords ∧ (r.status ≠ .ok → r.event = none)

/-- The USB frame byte by byte (30 R78). -/
def usbFrame (m : Rumble) (l : Lightbar) : List Byte :=
  [0x05, 0xF3, 0x00, 0x00, m.light, m.heavy, l.r, l.g, l.b, 0x00, 0x00, 0x00, 0x00, 0x00, 0x00, 0x00]

/-- The Bluetooth frame before its trailer, byte by byte (30 R79). -/
def btHead (m : Rumble) (l : Lightbar) : List Byte :=
  [0xA2, 0x11, 0x80, 0x00, 0xFF, 0x00, 0x00, m.light, m.heavy, l.r, l.g, l.b] ++ List.replicate 63 0x00

/-- The four bytes of a checksum, least significant first (43 R193). -/
def lsbFirst (x : BitVec 32) : List Byte :=
  [x.extractLsb' 0 8, x.extractLsb' 8 8, x.extractLsb' 16 8, x.extractLsb' 24 8]

/-- The Bluetooth frame (30 R79). -/
def btFrame (m : Rumble) (l : Lightbar) : List Byte := btHead m l ++ lsbFirst (crc32 hw (btHead m l))

/-- TX after the frame `f` was written from address 0: its bytes there, every other byte as it was (20 R56). -/
def TxHolds (f : List Byte) (s t : State) : Prop := ∀ a, t.txByte a = if a < f.length then f.getD a 0 else s.txByte a

/-- What `SEND` shows when the transport is resolved (42 R169): the response and its event carrying the frame of the registers as
they stand in `t`, and TX. -/
def Sent (s t : State) : Prop :=
  (s.iface = .usb →
    t.rsp = some { status := .ok, event := some (.tx 0x05 1 ((usbFrame t.rumble t.lightbar).drop 1)) } ∧
      TxHolds (usbFrame t.rumble t.lightbar) s t) ∧
  (s.iface = .bt →
    t.rsp = some { status := .ok, event := some (.tx 0x11 2 ((btFrame t.rumble t.lightbar).drop 2)) } ∧
      TxHolds (btFrame t.rumble t.lightbar) s t)

/-- A setter: one of the five operations that may return an error with a register changed (42 R173). -/
def isSetter : Instr → Bool
  | .srl _ => true
  | .srh _ => true
  | .slr _ => true
  | .slg _ => true
  | .slb _ => true
  | _ => false

/-- The operations of the decode path (10 R41; 40, 41). -/
def isDecodePath : Instr → Bool
  | .rxr _ _ => true
  | .decode _ => true
  | .detect _ _ => true
  | .normStick _ => true
  | .normTrig _ => true
  | .batt _ _ => true
  | .slot _ _ _ _ => true
  | _ => false

/-- The nine operations that a host presents (00 R6). -/
def isHostOp : Instr → Bool
  | .nop _ => true
  | .rst _ => true
  | .rxr _ _ => true
  | .srl _ => true
  | .srh _ => true
  | .slr _ => true
  | .slg _ => true
  | .slb _ => true
  | .enc _ => true
  | _ => false

/-- A connection start: the `reset` input or the operation `RST` (70 R230). -/
def startsConnection (a : Action) : Bool :=
  match a with
  | .reset => true
  | .present w _ =>
    match decodeCmd w with
    | .ok (.rst _) => true
    | _ => false
  | _ => false

/-- The event the step from `s` to `t` emitted: a response belongs to the operation run (30 R75). -/
def emitted (s t : State) : Option Event :=
  match s.call, s.input with
  | some _, _ => t.rsp.bind fun r => r.event
  | none, .present _ _ :: _ => t.rsp.bind fun r => r.event
  | none, _ => none

/-- The next step decodes a Bluetooth report: an `RXR` long enough while `IFACE = BT` (40 R105). -/
def decodesBtReport (s : State) : Bool :=
  match s.call, s.input with
  | none, .present w _ :: _ =>
    match decodeCmd w with
    | .ok (.rxr len _) => s.iface = .bt ∧ 44 ≤ len.toNat
    | _ => false
  | _, _ => false

/-- How many of the next `n` steps emit `ev`. -/
def countEmitted (ev : Event) : Nat → State → Nat
  | 0, _ => 0
  | n + 1, s =>
    match step s with
    | .next t => (if emitted s t = some ev then 1 else 0) + countEmitted ev n t
    | .fault _ => 0
    | .refused _ => 0

/-- How many of the next `n` steps decode a Bluetooth report. -/
def countBtDecodes : Nat → State → Nat
  | 0, _ => 0
  | n + 1, s =>
    match step s with
    | .next t => (if decodesBtReport s then 1 else 0) + countBtDecodes n t
    | .fault _ => 0
    | .refused _ => 0

end Sys2Proof.Safety
end

