-- ==== Sys2Proof/Certificates/Slice0/Obligations.lean ====
section
/-! DEFINITION. The statements about the machine. Each docstring names the rule of spec/ it comes from; where a clause rests on a
decision the spec marks as its own, or on a choice of the model, it says so. -/

open Sys2Proof Sys2Proof.Machine Sys2Proof.Safety

/-! ### Encodings -/

/-- 30 R71 to R74 and the opcode table's rows: no operand bit of any operation is lost. For the eleven sub-operations the bytes are the
model's choice (log 2), and so is that `nop`, `rst` and `enc` carry the `ARG` that the spec ignores (log 23). -/
def Obligations.EncodeThenDecodeGivesTheOperationBack : Prop :=
  ∀ i : Instr, i.wf = true → decode (encode i) = .ok i

/-- The other direction: words that decode are the words of what they decode to, as the model writes operations. In the spec all words of
`NOP`, of `RST` or of `ENC` are one operation, since their `ARG` is ignored (30 R82 b, vector T87); the model keeps that `ARG` as an
operand without effect, which is its own choice (log 23), as are the bytes of a sub-operation (log 2). -/
def Obligations.DecodedWordsAreTheEncodedOnes : Prop :=
  ∀ (w : Words) (i : Instr), decode w = .ok i → encode i = w ∧ i.wf = true

/-- 30 R72, R82 (a): which command words are illegal (the spec's decision D23). -/
def Obligations.IllegalCommandWordsAreExactlyThese : Prop :=
  ∀ w : CmdWord, (∃ why, decodeCmd w = .error why) ↔
    (w.extractLsb' 32 8 ∉ [0x00#8, 0x01#8, 0x02#8, 0x10#8, 0x11#8, 0x12#8, 0x13#8, 0x14#8, 0x20#8]) ∨
      (w.extractLsb' 32 8 = 0x02#8 ∧ w.extractLsb' 24 8 ≠ 0#8)

/-- 30 R72: command words of 95 T87 to T95 and of its program P1, one of each of the nine opcodes and two illegal ones, and the four bytes of vector T54, written out from the encodings, decode to what they stand for.
That a SLOT is decoded from a call with those bytes is the model's choice (log 1, 2): the spec gives it no command word. -/
def Obligations.WordsOfTheSpecDecode : Prop :=
  decode (.cmd 0x00DEADBEEF) = .ok (.nop 0xDEADBEEF) ∧
  decode (.cmd 0x0100000000) = .ok (.rst 0) ∧
  decode (.cmd 0x020001003F) = .ok (.rxr 63 1) ∧
  decode (.cmd 0x0201000040) = .error (.rxrHighByte 1) ∧
  decode (.cmd 0x10FFFFFFFB) = .ok (.srl 0xFFFFFFFB) ∧
  decode (.cmd 0x11000000C8) = .ok (.srh 200) ∧
  decode (.cmd 0x1200000000) = .ok (.slr 0) ∧
  decode (.cmd 0x13000000FF) = .ok (.slg 255) ∧
  decode (.cmd 0x1400000040) = .ok (.slb 64) ∧
  decode (.cmd 0x2000000000) = .ok (.enc 0) ∧
  decode (.cmd 0x0300000000) = .error (.unknownOp 3) ∧
  decode (.call .slot [0x05, 0x34, 0xA2, 0x5B]) = .ok (.slot 0x05 0x34 0xA2 0x5B)

/-! ### The step -/

/-- 00 R5, 60 R206: a step runs the operation that the presented command word decodes to, in the state with the presentation taken from
the host and `TS_IN` carrying the timestamp (30 R71; the input list is the model's, log 3). The second clause is the model's own: a
sub-operation that the field `call` holds is run on its own (log 1). -/
def Obligations.StepRunsTheDecodedOperation : Prop :=
  (∀ (s : State) (w : CmdWord) (ts : Stamp) (rest : List Action) (i : Instr), s.call = none →
    s.input = .present w ts :: rest → decode (.cmd w) = .ok i → step s = exec i { s with input := rest, tsIn := ts }) ∧
  ∀ (s : State) (op : SubOp) (l : List Byte) (i : Instr), s.call = some (op, l) →
    decode (.call op l) = .ok i → step s = exec i { s with call := none }

/-- 60 R203 (the spec's decision D23): an illegal command word completes with `E_ILLEGAL`, writes no state, emits no event. -/
def Obligations.IllegalCommandHasNoEffect : Prop :=
  ∀ (s : State) (w : CmdWord) (ts : Stamp) (rest : List Action) (why : Reject), s.call = none →
    s.input = .present w ts :: rest → decodeCmd w = .error why →
      step s = .next { s with input := rest, tsIn := ts, rsp := some { status := .eIllegal, event := none }, ret := .none }

/-- 20 R55: a write at the RX port stores that byte and changes no other byte and no register (the port and the buffer's size are the
spec's decisions D1 and D3, log 8, 20). -/
def Obligations.RxPortWriteStoresOneByte : Prop :=
  ∀ (s : State) (a : BitVec 7) (d : Byte) (rest : List Action), s.call = none → s.input = .rxWrite a d :: rest →
    ∃ t, step s = .next t ∧ t = { s with rx := t.rx, input := rest } ∧
      ∀ b, t.rxByte b = if b = a.toNat then d else s.rxByte b

/-- 10 R36, 20 R56, R57: a read at either port shows the byte and changes nothing else; the TX space ends at 78 (10 R35), where
the model faults (log 14). The ports are the spec's decision D1 (log 20), the fields that hold their data the model's (log 13). -/
def Obligations.PortReadsHaveNoSideEffect : Prop :=
  (∀ (s : State) (a : BitVec 6) (rest : List Action), s.call = none → s.input = .regRead a :: rest →
    step s = .next { s with input := rest, regOut := s.regByte a }) ∧
  (∀ (s : State) (a : BitVec 7) (rest : List Action), s.call = none → s.input = .txRead a :: rest → a.toNat ≤ 78 →
    step s = .next { s with input := rest, txOut := s.txByte a.toNat }) ∧
  (∀ (s : State) (a : BitVec 7) (rest : List Action), s.call = none → s.input = .txRead a :: rest → 79 ≤ a.toNat →
    step s = .fault (.txAddress a))

/-- 30 R84: the line `RXR len rid ts : bytes` puts the bytes into RX from address 0, leaves the rest of RX as it was, and presents
`RXR`; bytes past the buffer are not stored (20 R55, log 16). The textual line is the spec's decision D28 (log 20). -/
def Obligations.DeliveredReportReachesRxr : Prop :=
  ∀ (s : State) (bytes : List Byte) (len : BitVec 16) (rid : Byte) (ts : Stamp) (rest : List Action),
    s.call = none → s.input = deliverReport bytes len rid ts ++ rest →
      ∃ t : State, core.run ((bytes.take 128).length + 1) s = exec (.rxr len rid) t ∧
        t = { s with rx := t.rx, tsIn := ts, input := rest } ∧
        ∀ a, t.rxByte a = if a < (bytes.take 128).length then bytes.getD a 0 else s.rxByte a

/-- The model stops in two ways only: a read of TX beyond its 79 bytes, and a sub-operation in the field `call` with bytes that are no
operand of it, which no host can cause (log 1, 14, 15). -/
def Obligations.OnlyTwoStepsStop : Prop :=
  ∀ s : State, (∀ f, step s = .fault f → ∃ a rest,
      s.call = none ∧ s.input = .txRead a :: rest ∧ 79 ≤ a.toNat ∧ f = .txAddress a) ∧
    (∀ r, step s = .refused r → ∃ op l why,
      s.call = some (op, l) ∧ decodeCall op l = .error why ∧ r = .badOperand why)

/-- 60 R200, R205: every operation, in every state, completes with a response; it takes nothing from the host's list, has no other
operation run next, and touches neither RX nor the input ports (20 R55). That a sub-operation can complete on its own with a response
on RSP is the model's choice (log 1, 11), and so is the data held on the read ports (log 13). -/
def Obligations.EveryOperationCompletes : Prop :=
  ∀ (i : Instr) (s : State), ∃ t r, exec i s = .next t ∧ t.rsp = some r ∧
    t.input = s.input ∧ t.call = s.call ∧ t.tsIn = s.tsIn ∧ t.rx = s.rx ∧ t.txOut = s.txOut ∧ t.regOut = s.regOut

/-! ### Response words and the register map -/

/-- 30 R80: the response words that occur (the spec's decision D16). -/
def Obligations.ResponseWordsOfEachAnswer : Prop :=
  (Response.mk .ok none).word = 0x00000000 ∧ (Response.mk .ok (some .usbRes)).word = 0x0000000C ∧
  (Response.mk .ok (some (.featReq 0x02))).word = 0x00000208 ∧ (Response.mk .ePrecond none).word = 0x00000001 ∧
  (Response.mk .eBounds none).word = 0x00000002 ∧ (Response.mk .eIllegal none).word = 0x00000003 ∧
  (∀ body : List Byte, body.length = 15 → (Response.mk .ok (some (.tx 0x05 1 body))).word = 0x010F0504) ∧
  (∀ body : List Byte, body.length = 77 → (Response.mk .ok (some (.tx 0x11 2 body))).word = 0x024D1104)

/-- 30 R75, R80: whatever step is taken, a standing response is one of the eight words and an error carries no event. -/
def Obligations.StepsAnswerOnlyTheEightWords : Prop :=
  ∀ s t : State, ResponseOk s → step s = .next t → ResponseOk t

/-- 10 R36: what each address of the register map reads (the spec's decision D3); `IFACE` reads 0, 1 or 2 (10 R21, its decision D2). -/
def Obligations.RegisterMapShowsEveryRegister : Prop :=
  ∀ s : State,
    s.regByte 0x00 = (if s.iface = .disc then 0 else if s.iface = .usb then 1 else 2) ∧ s.regByte 0x01 = s.ctl.battery ∧
    s.regByte 0x02 = (if s.ctl.charging then 1 else 0) ∧ s.regByte 0x03 = s.ctl.touchN.setWidth 8 ∧
    (∀ i : Fin 4, s.regByte (BitVec.ofNat 6 (0x04 + i)) = s.ctl.stick[i]) ∧
    (∀ i : Fin 2, s.regByte (BitVec.ofNat 6 (0x08 + i)) = s.ctl.trig[i]) ∧
    (∀ k : Fin 3, s.regByte (BitVec.ofNat 6 (0x0B + 2 * k)) ++ s.regByte (BitVec.ofNat 6 (0x0A + 2 * k)) = s.ctl.gyro[k]) ∧
    (∀ k : Fin 3, s.regByte (BitVec.ofNat 6 (0x11 + 2 * k)) ++ s.regByte (BitVec.ofNat 6 (0x10 + 2 * k)) = s.ctl.accel[k]) ∧
    s.regByte 0x18 ++ s.regByte 0x17 ++ s.regByte 0x16 = s.ctl.btn.setWidth 24 ∧
    (∀ j : Fin 2, s.regByte (BitVec.ofNat 6 (0x1A + 6 * j)) = s.ctl.touch[j].id.setWidth 8 ∧
      s.regByte (BitVec.ofNat 6 (0x1B + 6 * j)) = 0 ∧
      s.regByte (BitVec.ofNat 6 (0x1D + 6 * j)) ++ s.regByte (BitVec.ofNat 6 (0x1C + 6 * j)) = s.ctl.touch[j].x.setWidth 16 ∧
      s.regByte (BitVec.ofNat 6 (0x1F + 6 * j)) ++ s.regByte (BitVec.ofNat 6 (0x1E + 6 * j)) = s.ctl.touch[j].y.setWidth 16) ∧
    s.regByte 0x2F ++ s.regByte 0x2E ++ s.regByte 0x2D ++ s.regByte 0x2C ++ s.regByte 0x2B ++ s.regByte 0x2A ++
      s.regByte 0x29 ++ s.regByte 0x28 = s.ctl.timestamp ∧
    s.regByte 0x30 = s.rumble.light ∧ s.regByte 0x31 = s.rumble.heavy ∧ s.regByte 0x32 = s.lightbar.r ∧
    s.regByte 0x33 = s.lightbar.g ∧ s.regByte 0x34 = s.lightbar.b ∧
    (∀ a ∈ [0x19#6, 0x26#6, 0x27#6], s.regByte a = 0) ∧ ∀ a : BitVec 6, 0x35 ≤ a.toNat → s.regByte a = 0

/-! ### Reset, NOP -/

/-- 70 R231, 10 R38: `RST` in every state. `IFACE` = DISC is the source's; the zeros are the spec's decision D11 (log 4). RX and TX are
not cleared; the fields after them are the ports' and the model's own, which `RST` leaves. -/
def Obligations.RstRestoresEveryRegister : Prop :=
  ∀ (arg : BitVec 32) (s : State), exec (.rst arg) s = .next
    { iface := .disc,
      ctl := { stick := #v[0, 0, 0, 0], trig := #v[0, 0], gyro := #v[0, 0, 0], accel := #v[0, 0, 0], btn := 0, battery := 0,
               charging := false, touchN := 0, touch := #v[⟨0, 0, 0⟩, ⟨0, 0, 0⟩], timestamp := 0 },
      rumble := ⟨0, 0⟩, lightbar := ⟨0, 0, 0⟩, rx := s.rx, tx := s.tx, tsIn := s.tsIn,
      rsp := some { status := .ok, event := none }, txOut := s.txOut, regOut := s.regOut, ret := .none, input := s.input,
      call := s.call }

/-- 70 R230 (the spec's decision D27): the reset input has the effect of `RST` on every register and buffer. That no response stands
after it is the model's choice (log 11). -/
def Obligations.ResetInputActsAsRst : Prop :=
  ∀ (s : State) (rest : List Action) (arg : BitVec 32), s.call = none → s.input = .reset :: rest →
    ∃ t, exec (.rst arg) { s with input := rest } = .next t ∧ step s = .next { t with rsp := none }

/-- 40 R107 (the spec's decision D1): `NOP` writes nothing and emits nothing, in every state. -/
def Obligations.NopHasNoEffect : Prop :=
  ∀ (arg : BitVec 32) (s : State),
    exec (.nop arg) s = .next { s with rsp := some { status := .ok, event := none }, ret := .none }

/-! ### The detector and report delivery -/

/-- 40 R101: `DETECT` for every length and interface. It reads only its operands and writes nothing; `RXR` writes the new interface to
`IFACE`. That `DETECT` can run on its own, answers OK on RSP and leaves its result in `ret` is the model's choice (log 1, 11, 12). -/
def Obligations.DetectAnswersByLength : Prop :=
  (∀ (rawLength : Nat) (cur : Iface) (s : State), ∃ new req, exec (.detect rawLength cur) s =
      .next { s with rsp := some { status := .ok, event := none }, ret := .detect new req } ∧
    (cur ≠ .disc → new = cur ∧ req = false) ∧
    (cur = .disc → rawLength = 63 → new = .usb ∧ req = false) ∧
    (cur = .disc → rawLength ≠ 63 → new = .bt ∧ req = true)) ∧
  ∀ (len : BitVec 16) (rid : Byte) (s : State), s.iface = .disc →
    ∃ t, exec (.rxr len rid) s = .next t ∧ t.iface = if len.toNat = 63 then .usb else .bt

/-- 40 R100, R104, R105: a first report of length 63 resolves to USB, is decoded in the same operation from raw offset 0 and
answers `USBRES` (the spec's decisions D24, D29); `TIMESTAMP` is the value on `TS_IN`. The report-id tag plays no part (D19). Nothing else changes. -/
def Obligations.FirstReportOf63ResolvesToUsb : Prop :=
  ∀ (len : BitVec 16) (rid : Byte) (s : State), s.iface = .disc → len.toNat = 63 →
    exec (.rxr len rid) s = .next { s with
      iface := .usb, ctl := decodeView hw (s.rxView 0) s.tsIn,
      rsp := some { status := .ok, event := some .usbRes }, ret := .none } ∧
    (decodeView hw (s.rxView 0) s.tsIn).timestamp = s.tsIn

/-- 40 R100, R102, R105: a first report of any other length, 0 included, resolves to Bluetooth, is discarded, and answers
`FEATREQ(0x02)`; no other register changes, `TIMESTAMP` neither (the spec's decision D29), whatever the tag (D19). -/
def Obligations.OtherFirstReportResolvesToBluetooth : Prop :=
  ∀ (len : BitVec 16) (rid : Byte) (s : State), s.iface = .disc → len.toNat ≠ 63 →
    exec (.rxr len rid) s = .next { s with
      iface := .bt, rsp := some { status := .ok, event := some (.featReq 0x02) }, ret := .none }

/-- 40 R100, R103, R105, 20 R58, R63: a resolved block decodes every report that is long enough, from raw offset 0 on USB and 2 on
Bluetooth, whatever its length otherwise; Bluetooth re-arms with `FEATREQ(0x02)`, USB answers no event. `TIMESTAMP`
is the value on `TS_IN`. The least lengths are derived by the spec (20 R63); that the tag plays no part is its
decision D19. -/
def Obligations.ResolvedReportIsDecoded : Prop :=
  ∀ (len : BitVec 16) (rid : Byte) (s : State),
    (s.iface = .usb → 42 ≤ len.toNat → exec (.rxr len rid) s = .next { s with
      ctl := decodeView hw (s.rxView 0) s.tsIn, rsp := some { status := .ok, event := none }, ret := .none } ∧
      (decodeView hw (s.rxView 0) s.tsIn).timestamp = s.tsIn) ∧
    (s.iface = .bt → 44 ≤ len.toNat → exec (.rxr len rid) s = .next { s with
      ctl := decodeView hw (s.rxView 2) s.tsIn, rsp := some { status := .ok, event := some (.featReq 0x02) }, ret := .none } ∧
      (decodeView hw (s.rxView 2) s.tsIn).timestamp = s.tsIn)

/-- 60 R202, 20 R63: a report too short for the resolved transport is refused whole: `E_BOUNDS`, nothing written, no event (the
spec's decision D21), whatever the tag (D19). -/
def Obligations.ShortReportIsRefusedWhole : Prop :=
  ∀ (len : BitVec 16) (rid : Byte) (s : State),
    (s.iface = .usb ∧ len.toNat < 42) ∨ (s.iface = .bt ∧ len.toNat < 44) →
      exec (.rxr len rid) s = .next { s with rsp := some { status := .eBounds, event := none }, ret := .none }

/-- 20 R51, R55, 93 U2, U3: what a report does to the registers and what it answers depend on no byte of RX at or above its length
or above address 43, and on Bluetooth not on the two stripped bytes (20 R58). So neither stale bytes nor the power-up contents
matter when the host wrote what it announced. That the report-id tag matters neither is the spec's decision D19 (log 20). -/
def Obligations.ReportReadsOnlyItsOwnBytes : Prop :=
  ∀ (len : BitVec 16) (rid rid' : Byte) (s s' : State),
    s'.iface = s.iface → s'.ctl = s.ctl → s'.tsIn = s.tsIn →
    (∀ a, a < min len.toNat 44 → (s.iface = .bt → 2 ≤ a) → s'.rxByte a = s.rxByte a) →
      ∃ t t', exec (.rxr len rid) s = .next t ∧ exec (.rxr len rid') s' = .next t' ∧
        t'.iface = t.iface ∧ t'.ctl = t.ctl ∧ t'.rsp = t.rsp

/-! ### The decoder -/

/-- 41 R120: `DECODE` on its own, resolved and long enough: the decoder's registers and nothing else; `TIMESTAMP` is `RXR`'s to write.
That it can run on its own and answers OK on RSP is the model's choice (log 1, 11). -/
def Obligations.DecodeWritesTheDecodersRegisters : Prop :=
  ∀ (view : List Byte) (s : State), s.iface ≠ .disc → 42 ≤ view.length →
    exec (.decode view) s = .next { s with
      ctl := decodeView hw (listView view) s.ctl.timestamp,
      rsp := some { status := .ok, event := none }, ret := .none } ∧
    (decodeView hw (listView view) s.ctl.timestamp).timestamp = s.ctl.timestamp

/-- 41 R120, R137, 60 R201, R205: decoding before the interface is resolved is an explicit error, whatever the view, and writes nothing;
through `RXR` the error cannot happen, which the spec derives (40 R100). That `DECODE` can run on its own, its answer on RSP and its
empty result are the model's choice (log 1, 11, 12). -/
def Obligations.DecodeBeforeResolutionIsAnError : Prop :=
  (∀ (view : List Byte) (s : State), s.iface = .disc →
    exec (.decode view) s = .next { s with rsp := some { status := .ePrecond, event := none }, ret := .none }) ∧
  ∀ (len : BitVec 16) (rid : Byte) (s : State), ∃ t r,
    exec (.rxr len rid) s = .next t ∧ t.rsp = some r ∧ r.status ≠ .ePrecond

/-- 41 R120, 20 R63: a view under 42 bytes is refused and nothing is written (run on its own: log 1, 11). -/
def Obligations.DecodeOfAShortViewIsRefused : Prop :=
  ∀ (view : List Byte) (s : State), s.iface ≠ .disc → view.length < 42 →
    exec (.decode view) s = .next { s with rsp := some { status := .eBounds, event := none }, ret := .none }

/-- 41 R138 (b): decoding the same view twice leaves the state that once left (run on its own: log 1). -/
def Obligations.DecodingTwiceIsDecodingOnce : Prop :=
  ∀ (view : List Byte) (s t : State), exec (.decode view) s = .next t → exec (.decode view) t = .next t

/-- 41 R120, R138 (a), 93 U2: no register depends on the ignored bytes and bits of 30 R76 and R77, for every parameter value. -/
def Obligations.IgnoredBytesDoNotMatter : Prop :=
  ∀ (c : Config) (v v' : View) (ts : Stamp),
    (∀ o, o < 42 → o ≠ 6 → o ≠ 29 → ¬(9 ≤ o ∧ o ≤ 12) → ¬(25 ≤ o ∧ o ≤ 28) → ¬(30 ≤ o ∧ o ≤ 33) → v' o = v o) →
    (v' 6).extractLsb' 0 2 = (v 6).extractLsb' 0 2 → (v' 29).extractLsb' 0 5 = (v 29).extractLsb' 0 5 →
      decodeView c v' ts = decodeView c v ts

/-- 41 R121, R138 (d): the stick registers, for every dead zone: the deviation from 128, or 0 strictly below the dead zone (the spec's
decisions D5 and D6, log 19); non-decreasing in the raw byte; at dead zone 0 the byte with its top bit inverted. -/
def Obligations.SticksHoldTheDeviation : Prop :=
  (∀ (c : Config) (v : View) (ts : Stamp) (i : Fin 4), ((decodeView c v ts).stick[i]).toInt =
      if ((v i).toNat - 128 : Int).natAbs < c.stickDz then 0 else ((v i).toNat - 128 : Int)) ∧
  (∀ (c : Config) (a b : Byte), a.toNat ≤ b.toNat → (normStick c a).toInt ≤ (normStick c b).toInt) ∧
  (∀ (v : View) (ts : Stamp) (i : Fin 4), (decodeView hw v ts).stick[i] = v i ^^^ 0x80)

/-- 41 R127, R138 (d): the trigger registers, for every dead zone of 00 R7: never below it; non-decreasing; at 0 the byte itself
(units: the spec's decisions D5 and D6, log 19; which byte is which trigger: its decision D10, log 18). -/
def Obligations.TriggersAreClampedBelow : Prop :=
  (∀ (c : Config) (v : View) (ts : Stamp) (i : Fin 2), c.trigDz ≤ 255 →
    ((decodeView c v ts).trig[i]).toNat = max c.trigDz (v (7 + i)).toNat) ∧
  (∀ (c : Config) (a b : Byte), c.trigDz ≤ 255 → a.toNat ≤ b.toNat → (normTrig c a).toNat ≤ (normTrig c b).toNat) ∧
  (∀ (v : View) (ts : Stamp) (i : Fin 2), (decodeView hw v ts).trig[i] = v (7 + i))

/-- 41 R122, R125, R126 and 10 R28 (the spec's decisions D4, D17): which report bit each of the 14 copied flags is. -/
def Obligations.ButtonsAreTheReportsBits : Prop :=
  ∀ (c : Config) (v : View) (ts : Stamp),
    (∀ k, k < 4 → (decodeView c v ts).btn.getLsbD k = (v 4).getLsbD (7 - k)) ∧
    (∀ j, j < 8 → (decodeView c v ts).btn.getLsbD (8 + j) = (v 5).getLsbD j) ∧
    (∀ k, k < 2 → (decodeView c v ts).btn.getLsbD (16 + k) = (v 6).getLsbD k)

/-- 41 R123, R124 (ranges derived by the spec; codes 9 to 15 its decision D18, log 18): the four directions of a D-pad code. That they stand
at bits 4 to 7 of `BTN` (10 R28) is its decision D4 (log 18). -/
def Obligations.DpadCodesSetTheirDirections : Prop :=
  ∀ (c : Config) (v : View) (ts : Stamp) (d : Nat), d = ((v 4).extractLsb' 0 4).toNat →
    ((decodeView c v ts).btn.getLsbD 4 = true ↔ d = 7 ∨ d = 0 ∨ d = 1) ∧
    ((decodeView c v ts).btn.getLsbD 5 = true ↔ d = 1 ∨ d = 2 ∨ d = 3) ∧
    ((decodeView c v ts).btn.getLsbD 6 = true ↔ d = 3 ∨ d = 4 ∨ d = 5) ∧
    ((decodeView c v ts).btn.getLsbD 7 = true ↔ d = 5 ∨ d = 6 ∨ d = 7)

/-- 41 R128, R129: the gyroscope samples are unsigned and the accelerometer samples signed, both little-endian. -/
def Obligations.MotionSamplesAreLittleEndian : Prop :=
  ∀ (c : Config) (v : View) (ts : Stamp) (k : Fin 3),
    ((decodeView c v ts).gyro[k]).toNat = (v (13 + 2 * k)).toNat + 256 * (v (14 + 2 * k)).toNat ∧
    ((decodeView c v ts).accel[k]).toInt =
      (let n : Int := (v (19 + 2 * k)).toNat + 256 * (v (20 + 2 * k)).toNat
       if n < 32768 then n else n - 65536)

/-- 41 R130, R131: charging is bit 4 of view byte 29; the battery percentage is not bounded at 100 while charging. -/
def Obligations.BatteryFollowsTheNibble : Prop :=
  ∀ (c : Config) (v : View) (ts : Stamp) (n : Nat), n = (v 29).toNat % 16 →
    (decodeView c v ts).charging = (v 29).getLsbD 4 ∧
    ((decodeView c v ts).battery).toNat = if (v 29).getLsbD 4 then n * 100 / 11 else min 100 (n * 100 / 8)

/-- 41 R132, R133: the touch sequence in slot order, one entry per active slot, and all zeros beyond it (the spec's decision D7). -/
def Obligations.TouchSequenceIsReplaced : Prop :=
  ∀ (c : Config) (v : View) (ts : Stamp) (e : Nat → Touch),
    (∀ b, (e b).id.toNat = (v b).toNat % 128 ∧ (e b).x.toNat = (v (b + 2)).toNat % 16 * 256 + (v (b + 1)).toNat ∧
      (e b).y.toNat = (v (b + 3)).toNat * 16 + (v (b + 2)).toNat / 16) →
    let k := decodeView c v ts
    ((v 34).getLsbD 7 = false → (v 38).getLsbD 7 = false → k.touchN = 2 ∧ k.touch = #v[e 34, e 38]) ∧
    ((v 34).getLsbD 7 = false → (v 38).getLsbD 7 = true → k.touchN = 1 ∧ k.touch = #v[e 34, ⟨0, 0, 0⟩]) ∧
    ((v 34).getLsbD 7 = true → (v 38).getLsbD 7 = false → k.touchN = 1 ∧ k.touch = #v[e 38, ⟨0, 0, 0⟩]) ∧
    ((v 34).getLsbD 7 = true → (v 38).getLsbD 7 = true → k.touchN = 0 ∧ k.touch = #v[⟨0, 0, 0⟩, ⟨0, 0, 0⟩])

/-- 41 R121, R127 with the default dead zones (00 R7): what the two normalisations answer, and that they change nothing
(representation: the spec's decision D5, log 19). That each can run
on its own, its answer on RSP and its result in `ret` are the model's choice (log 1, 11, 12). -/
def Obligations.NormalisationsAnswerAtDefaultDeadZone : Prop :=
  ∀ (raw : Byte) (s : State),
    exec (.normStick raw) s = .next { s with rsp := some { status := .ok, event := none }, ret := .byte (raw ^^^ 0x80) } ∧
    exec (.normTrig raw) s = .next { s with rsp := some { status := .ok, event := none }, ret := .byte raw }

/-- 41 R131: `BATT(n, c)`, every nibble and flag, and that it changes nothing. That it can run on its own, its answer on RSP and its
result in `ret` are the model's choice (log 1, 11, 12). -/
def Obligations.BattAnswersThePercentage : Prop :=
  ∀ (n : BitVec 4) (c : Bool) (s : State), ∃ p : Byte,
    exec (.batt n c) s = .next { s with rsp := some { status := .ok, event := none }, ret := .byte p } ∧
    p.toNat = (if c then n.toNat * 100 / 11 else min 100 (n.toNat * 100 / 8)) ∧ p.toNat ≤ 136

/-- 41 R132: `SLOT`: none for an inactive slot, else the packed fields, neither clamped nor checked; it changes nothing. That it can run on
its own, its answer on RSP and its result in `ret` are the model's choice (log 1, 11, 12). -/
def Obligations.SlotAnswersThePackedFields : Prop :=
  ∀ (b0 b1 b2 b3 : Byte) (s : State),
    (b0.getLsbD 7 = true → exec (.slot b0 b1 b2 b3) s =
      .next { s with rsp := some { status := .ok, event := none }, ret := .slot none }) ∧
    (b0.getLsbD 7 = false → ∃ e : Touch, exec (.slot b0 b1 b2 b3) s =
        .next { s with rsp := some { status := .ok, event := none }, ret := .slot (some e) } ∧
      e.id.toNat = b0.toNat % 128 ∧ e.x.toNat = b2.toNat % 16 * 256 + b1.toNat ∧
      e.y.toNat = b3.toNat * 16 + b2.toNat / 16)

/-! ### The setters and the encoder -/

/-- 42 R160, R174 (a): `CLAMP8`: the comparison is signed; it changes nothing. Every setter stores the clamped value, in every state; before
resolution that is the spec's decision D20 (log 20). That `CLAMP8` can run on its own, its answer on RSP and its result in `ret` are
the model's choice (log 1, 11, 12). -/
def Obligations.ClampIsSigned : Prop :=
  ∀ (v : BitVec 32) (s : State), ∃ b : Byte,
    exec (.clamp8 v) s = .next { s with rsp := some { status := .ok, event := none }, ret := .byte b } ∧ b = clamp8 v ∧
    (v.toInt < 0 → b.toNat = 0) ∧ (255 < v.toInt → b.toNat = 255) ∧ (0 ≤ v.toInt → v.toInt ≤ 255 → (b.toNat : Int) = v.toInt) ∧
    (∃ t, exec (.srl v) s = .next t ∧ t.rumble.light = b) ∧ (∃ t, exec (.srh v) s = .next t ∧ t.rumble.heavy = b) ∧
    (∃ t, exec (.slr v) s = .next t ∧ t.lightbar.r = b) ∧ (∃ t, exec (.slg v) s = .next t ∧ t.lightbar.g = b) ∧
    (∃ t, exec (.slb v) s = .next t ∧ t.lightbar.b = b)

/-- 42 R161, R162, R169, R171: with the transport resolved, a rumble setter writes its own register with the clamped value, whether or
not it changes (the spec's decision D22), sends the whole frame, and changes nothing else. The bytes of the frames are the spec's
decisions D12 to D15, presumed values (log 9); the event's form is its decision D16. -/
def Obligations.RumbleSettersWriteAndSend : Prop :=
  ∀ (val : BitVec 32) (s : State), s.iface ≠ .disc →
    (∃ t, exec (.srl val) s = .next t ∧
      t = { s with rumble := ⟨clamp8 val, s.rumble.heavy⟩, tx := t.tx, rsp := t.rsp, ret := .none } ∧ Sent s t) ∧
    (∃ t, exec (.srh val) s = .next t ∧
      t = { s with rumble := ⟨s.rumble.light, clamp8 val⟩, tx := t.tx, rsp := t.rsp, ret := .none } ∧ Sent s t)

/-- 42 R163, R164, R165, R169, R171: the same of the three lightbar setters (D22; frames: the spec's decisions D12 to D15, log 9; D16). -/
def Obligations.LightbarSettersWriteAndSend : Prop :=
  ∀ (val : BitVec 32) (s : State), s.iface ≠ .disc →
    (∃ t, exec (.slr val) s = .next t ∧
      t = { s with lightbar := ⟨clamp8 val, s.lightbar.g, s.lightbar.b⟩, tx := t.tx, rsp := t.rsp, ret := .none } ∧ Sent s t) ∧
    (∃ t, exec (.slg val) s = .next t ∧
      t = { s with lightbar := ⟨s.lightbar.r, clamp8 val, s.lightbar.b⟩, tx := t.tx, rsp := t.rsp, ret := .none } ∧ Sent s t) ∧
    (∃ t, exec (.slb val) s = .next t ∧
      t = { s with lightbar := ⟨s.lightbar.r, s.lightbar.g, clamp8 val⟩, tx := t.tx, rsp := t.rsp, ret := .none } ∧ Sent s t)

/-- 42 R173, 60 R201 (the spec's decision D20): before resolution a setter keeps the clamped value, answers `E_PRECOND`, emits nothing
and builds no frame. -/
def Obligations.SettersBeforeResolutionKeepTheValue : Prop :=
  ∀ (val : BitVec 32) (s u : State), s.iface = .disc →
    u = { s with rsp := some { status := .ePrecond, event := none }, ret := .none } →
    exec (.srl val) s = .next { u with rumble := ⟨clamp8 val, s.rumble.heavy⟩ } ∧
    exec (.srh val) s = .next { u with rumble := ⟨s.rumble.light, clamp8 val⟩ } ∧
    exec (.slr val) s = .next { u with lightbar := ⟨clamp8 val, s.lightbar.g, s.lightbar.b⟩ } ∧
    exec (.slg val) s = .next { u with lightbar := ⟨s.lightbar.r, clamp8 val, s.lightbar.b⟩ } ∧
    exec (.slb val) s = .next { u with lightbar := ⟨s.lightbar.r, s.lightbar.g, clamp8 val⟩ }

/-- 42 R168, R169: `ENC`, and `SEND` on its own, send the frame and write no register. The bytes of the frames are the spec's decisions D12
to D15, presumed values (log 9); `ENC` as an operation is its decision D22; that `SEND` can run on its own is the model's choice
(log 1). -/
def Obligations.ResendWritesNoRegister : Prop :=
  ∀ (arg : BitVec 32) (s : State), s.iface ≠ .disc →
    (∃ t, exec (.enc arg) s = .next t ∧ t = { s with tx := t.tx, rsp := t.rsp, ret := .none } ∧ Sent s t) ∧
    (∃ t, exec .send s = .next t ∧ t = { s with tx := t.tx, rsp := t.rsp, ret := .none } ∧ Sent s t)

/-- 42 R168, R169, 60 R201: `ENC` and `SEND` before resolution: `E_PRECOND`, nothing written, nothing emitted. `ENC` as an operation is the
spec's decision D22; that `SEND` can run on its own is the model's choice (log 1). -/
def Obligations.ResendBeforeResolutionIsAnError : Prop :=
  ∀ (arg : BitVec 32) (s : State), s.iface = .disc →
    exec (.enc arg) s = .next { s with rsp := some { status := .ePrecond, event := none }, ret := .none } ∧
    exec .send s = .next { s with rsp := some { status := .ePrecond, event := none }, ret := .none }

/-- 42 R166, R167, R174 (b), (c), 20 R56: the frame builders, whatever the transport: TX holds the frame from address 0, every other byte of TX and every
register is as it was, and the result is the report id and the body, which is written out byte by byte. The bytes of the frames are the spec's decisions D12 to D15,
presumed values (log 9); that each can run on its own, its answer on RSP and its result in `ret` are the model's choice (log 1, 11,
12). -/
def Obligations.FrameBuildersWriteTheirFrame : Prop :=
  ∀ s : State,
    (∃ t, exec .encodeUsb s = .next t ∧ TxHolds (usbFrame s.rumble s.lightbar) s t ∧
      t = { s with tx := t.tx, rsp := some { status := .ok, event := none },
                   ret := .frame 0x05 ((usbFrame s.rumble s.lightbar).drop 1) }) ∧
    (∃ t, exec .encodeBt s = .next t ∧ TxHolds (btFrame s.rumble s.lightbar) s t ∧
      t = { s with tx := t.tx, rsp := some { status := .ok, event := none },
                   ret := .frame 0x11 ((btFrame s.rumble s.lightbar).drop 2) }) ∧
    (usbFrame s.rumble s.lightbar).drop 1 =
      [0xF3, 0, 0, s.rumble.light, s.rumble.heavy, s.lightbar.r, s.lightbar.g, s.lightbar.b, 0, 0, 0, 0, 0, 0, 0] ∧
    (btFrame s.rumble s.lightbar).drop 2 =
      [0x80, 0, 0xFF, 0, 0, s.rumble.light, s.rumble.heavy, s.lightbar.r, s.lightbar.g, s.lightbar.b] ++
        List.replicate 63 0 ++ lsbFirst (crc32 hw (btHead s.rumble s.lightbar)) ∧
    ((btFrame s.rumble s.lightbar).drop 2).length = 77

/-- 42 R167, 43 R193, R174 (d), 93 U11: for every parameter value the Bluetooth frame has 79 bytes and its last four hold the checksum
of the 75 before them, in the order `BT_CRC_LSB_FIRST` says. -/
def Obligations.TrailerIsTheChecksumOfTheRest : Prop :=
  ∀ (c : Config) (m : Rumble) (l : Lightbar) (f : List Byte), f = frameBt c m l →
    f.length = 79 ∧
    (c.btCrcLsbFirst = true →
      f.getD 78 0 ++ f.getD 77 0 ++ f.getD 76 0 ++ f.getD 75 0 = crc32 c (f.take 75)) ∧
    (c.btCrcLsbFirst = false →
      f.getD 75 0 ++ f.getD 76 0 ++ f.getD 77 0 ++ f.getD 78 0 = crc32 c (f.take 75))

/-- 00 R7, 30 R79, 93 U11: for every valid parameter value each named byte of the Bluetooth frame stands at its own offset, the two
bytes of the pre-header first, and every other byte before the trailer is zero. -/
def Obligations.BluetoothBytesStandAtTheirOffsets : Prop :=
  ∀ (c : Config) (m : Rumble) (l : Lightbar) (f : List Byte), c.Valid → f = frameBt c m l →
    f.getD 0 0 = 0xA2 ∧ f.getD 1 0 = 0x11 ∧ f.getD c.btPollOff 0 = c.btPollVal ∧ f.getD c.btFlagsOff 0 = c.btFlagsVal ∧
    f.getD c.btLightOff 0 = m.light ∧ f.getD c.btHeavyOff 0 = m.heavy ∧ f.getD c.btROff 0 = l.r ∧
    f.getD c.btGOff 0 = l.g ∧ f.getD c.btBOff 0 = l.b ∧
    ∀ o, 2 ≤ o → o < 75 → o ∉ c.btOffsets → f.getD o 0 = 0

/-- 42 R170: two different contents of the five registers give two different frames, on either transport, for every valid parameter
value. -/
def Obligations.FramesTellTheRegistersApart : Prop :=
  ∀ (c : Config) (m m' : Rumble) (l l' : Lightbar), c.Valid →
    (frameUsb c m l = frameUsb c m' l' → m = m' ∧ l = l') ∧ (frameBt c m l = frameBt c m' l' → m = m' ∧ l = l')

/-! ### CRC32 -/

/-- 43 R190, R194 (the spec's decision D15, presumed values, log 9): what `CRC32` answers, that it changes nothing, and the check values.
That it can run on its own, its answer on RSP and its result in `ret` are the model's choice (log 1, 11, 12). -/
def Obligations.CrcAnswersTheCheckValues : Prop :=
  (∀ (m : List Byte) (s : State), exec (.crc32 m) s =
    .next { s with rsp := some { status := .ok, event := none }, ret := .crc (crc32 hw m) }) ∧
  crc32 hw [] = 0x00000000 ∧ crc32 hw [0x00] = 0xD202EF8D ∧ crc32 hw [0x61] = 0xE8B7BE43 ∧
  crc32 hw [0xFF, 0xFF, 0xFF, 0xFF] = 0xFFFFFFFF ∧ crc32 hw [0xA2, 0x11] = 0xB758EC66 ∧
  crc32 hw [0x31, 0x32, 0x33, 0x34, 0x35, 0x36, 0x37, 0x38, 0x39] = 0xCBF43926

/-- 43 R191: the function by the listed table is the function by rounds, on every byte sequence. -/
def Obligations.CrcByTableIsTheCrc : Prop :=
  ∀ m : List Byte, crc32ByTable m = crc32 hw m

/-- 42 R174 (e) (93 G9, general knowledge): a message followed by its own checksum, least significant byte first, has one fixed
checksum; every Bluetooth frame therefore has it. -/
def Obligations.CrcOfAMessageWithItsTrailerIsFixed : Prop :=
  (∀ m : List Byte, crc32 hw (m ++ lsbFirst (crc32 hw m)) = 0x2144DF1C) ∧
  ∀ (m : Rumble) (l : Lightbar), crc32 hw (btFrame m l) = 0x2144DF1C

/-! ### Whole-machine rules -/

/-- 10 R38, 70 R232: after reset `IFACE` is DISC and every other register 0 (the spec's decision D11, log 4), the state is good, its
buffers are canonical (their contents: log 5, 6), no response stands (log 11), and nothing is to be run (the host's list and the field
`call`: log 3, 1). -/
def Obligations.ResetStateIsGood : Prop :=
  Inv State.reset ∧ BuffersOk State.reset ∧ ResponseOk State.reset ∧ State.reset.iface = .disc ∧
    State.reset.ctl =
      { stick := #v[0, 0, 0, 0], trig := #v[0, 0], gyro := #v[0, 0, 0], accel := #v[0, 0, 0], btn := 0, battery := 0,
        charging := false, touchN := 0, touch := #v[⟨0, 0, 0⟩, ⟨0, 0, 0⟩], timestamp := 0 } ∧
    State.reset.rumble = ⟨0, 0⟩ ∧ State.reset.lightbar = ⟨0, 0, 0⟩ ∧ State.reset.rsp = none ∧
    State.reset.input = [] ∧ State.reset.call = none

/-- 10 R40 (b), (c), (f), (g) and the values of R29: whatever the host does, a step from a good state leaves a good state. That
clause (g) has zeros is the spec's decision D11 (log 4), the zero touch entries its D7, the places of the directions its D4, and no
direction at codes above 8 its D18 (log 18). -/
def Obligations.StepsKeepTheRegisterInvariant : Prop :=
  ∀ s t : State, Inv s → step s = .next t → Inv t

/-- 10 R35: every step keeps both buffers in canonical form and within their sizes. -/
def Obligations.StepsKeepTheBuffersCanonical : Prop :=
  ∀ s t : State, BuffersOk s → step s = .next t → BuffersOk t

/-- 10 R21, R40 (a), 40 R105: `IFACE` leaves `DISC` only by a report and leaves `USB` and `BT` only by a connection start. -/
def Obligations.IfaceChangesOnlyFromDisconnected : Prop :=
  ∀ s t : State, step s = .next t → s.iface ≠ t.iface → s.call = none ∧ (
    (s.iface = .disc ∧ ∃ w ts rest len rid, s.input = .present w ts :: rest ∧ decode (.cmd w) = .ok (.rxr len rid)) ∨
      (t.iface = .disc ∧ ∃ a rest, s.input = a :: rest ∧ startsConnection a = true))

/-- 10 R41, 42 R174 (f), and what the rules of each operation list as written: a connection start apart, ControllerState is written by `RXR` and its
`DECODE` alone, `IFACE` by `RXR` alone, and each of the five RumbleState and LightbarState registers by its own setter alone; so no
operation of the decode path writes these five, and no setter and no `ENC` writes the others. That sub-operations can run on their own
is the model's choice (log 1). -/
def Obligations.EachStateGroupHasOneWriter : Prop :=
  ∀ (i : Instr) (s t : State), exec i s = .next t →
    (isDecodePath i = true → t.rumble = s.rumble ∧ t.lightbar = s.lightbar) ∧
    (isSetter i = true ∨ (∃ arg, i = .enc arg) → t.ctl = s.ctl ∧ t.iface = s.iface) ∧
    ((∃ arg, i = .enc arg) → t.rumble = s.rumble ∧ t.lightbar = s.lightbar) ∧
    ((∀ arg, i ≠ .rst arg) →
      ((∀ len rid, i ≠ .rxr len rid) → t.iface = s.iface) ∧
      ((∀ len rid, i ≠ .rxr len rid) → (∀ view, i ≠ .decode view) → t.ctl = s.ctl) ∧
      ((∀ v, i ≠ .srl v) → t.rumble.light = s.rumble.light) ∧ ((∀ v, i ≠ .srh v) → t.rumble.heavy = s.rumble.heavy) ∧
      ((∀ v, i ≠ .slr v) → t.lightbar.r = s.lightbar.r) ∧ ((∀ v, i ≠ .slg v) → t.lightbar.g = s.lightbar.g) ∧
      ((∀ v, i ≠ .slb v) → t.lightbar.b = s.lightbar.b))

/-- 60 R205, 40 R108 (d): an operation that answers an error leaves every register and both buffers as they were, and emits nothing; a
setter's own register is the one exception (42 R173, the spec's decision D20), and the other four stand. -/
def Obligations.ErrorsLeaveNoOtherTrace : Prop :=
  ∀ (i : Instr) (s t : State) (r : Response), exec i s = .next t → t.rsp = some r → r.status ≠ .ok →
    r.event = none ∧ t.iface = s.iface ∧ t.ctl = s.ctl ∧ t.rx = s.rx ∧ t.tx = s.tx ∧
      ((∀ v, i ≠ .srl v) → t.rumble.light = s.rumble.light) ∧ ((∀ v, i ≠ .srh v) → t.rumble.heavy = s.rumble.heavy) ∧
      ((∀ v, i ≠ .slr v) → t.lightbar.r = s.lightbar.r) ∧ ((∀ v, i ≠ .slg v) → t.lightbar.g = s.lightbar.g) ∧
      ((∀ v, i ≠ .slb v) → t.lightbar.b = s.lightbar.b)

/-- 40 R108 (b): over any run with no connection start in it, from any unresolved state, `USBRES` is emitted exactly once if the
transport ends as USB and never otherwise. `USBRES` in place of applying a colour is the spec's decision D24. -/
def Obligations.UsbResIsEmittedOncePerUsbConnection : Prop :=
  ∀ (n : Nat) (s t : State), s.iface = .disc → (∀ a ∈ s.input.take n, startsConnection a = false) →
    core.run n s = .next t → countEmitted .usbRes n s = if t.iface = .usb then 1 else 0

/-- 40 R108 (c): over any run with no connection start in it, from any unresolved state, the number of `FEATREQ` events is one plus the
number of Bluetooth reports decoded when the transport ends as Bluetooth, and zero otherwise. That a refused report re-arms nothing and
that the first report is only discarded are the spec's decisions D21 and D29. -/
def Obligations.FeatureRequestsCountTheBluetoothReports : Prop :=
  ∀ (n : Nat) (s t : State), s.iface = .disc → (∀ a ∈ s.input.take n, startsConnection a = false) →
    core.run n s = .next t →
      countEmitted (.featReq 0x02) n s = if t.iface = .bt then 1 + countBtDecodes n s else 0

/-- 00 R6 (its split into operations is the spec's decision D1): a command word decodes to one of the nine host operations only, and
whatever the host does, no step has an internal sub-operation run on its own next, so these are reached only through the nine. The
field `call` is the model's own (log 1). -/
def Obligations.SubOperationsAreReachedOnlyThroughTheNine : Prop :=
  (∀ (w : CmdWord) (i : Instr), decode (.cmd w) = .ok i → isHostOp i = true) ∧
  State.reset.call = none ∧ ∀ s t : State, s.call = none → step s = .next t → t.call = none
end

