-- ==== Sys2Proof/Laws/Memory.lean ====
section
/-! SUPPORT. Read after write, and the canonical form, of the buffers: every operation on a buffer keeps it. -/

namespace Sys2Proof.Machine

@[simp] theorem Memory.get_nil (a : Nat) : Memory.get [] a = none := rfl

@[simp] theorem Memory.get_cons (k : Nat) (b : Byte) (m : Memory) (a : Nat) :
    Memory.get ((k, b) :: m) a = if k = a then some b else Memory.get m a := rfl

/-- A lookup in two lists: the first that lists the address answers. -/
theorem Memory.get_append (m n : Memory) (a : Nat) : Memory.get (m ++ n) a = (Memory.get m a).or (Memory.get n a) := by
  induction m with
  | nil => simp
  | cons p m ih =>
    obtain ⟨k, b⟩ := p
    by_cases h : k = a <;> simp [h, ih]

/-- A lookup after leaving out entries by their address. -/
theorem Memory.get_filter (f : Nat → Bool) (m : Memory) (a : Nat) :
    Memory.get (m.filter fun p => f p.1) a = if f a then Memory.get m a else none := by
  induction m with
  | nil => simp
  | cons p m ih =>
    obtain ⟨k, b⟩ := p
    by_cases h : k = a
    · subst h
      by_cases hf : f k <;> simp [hf, ih]
    · by_cases hf : f k <;> simp [hf, ih, h]

theorem Memory.get_cells (bs : List Byte) (a b : Nat) :
    Memory.get (Memory.cells a bs) b = if a ≤ b ∧ b < a + bs.length then some (bs.getD (b - a) 0) else none := by
  induction bs generalizing a with
  | nil => simp [Memory.cells]
  | cons x bs ih =>
    rw [Memory.cells, Memory.get_cons, ih]
    by_cases hb : a = b
    · subst hb; simp
    · by_cases h : a + 1 ≤ b ∧ b < a + 1 + bs.length
      · have h' : a ≤ b ∧ b < a + (x :: bs).length := by simp; omega
        rw [if_neg hb, if_pos h, if_pos h', show b - a = (b - (a + 1)) + 1 by omega]
        rfl
      · have h' : ¬(a ≤ b ∧ b < a + (x :: bs).length) := by simp; omega
        rw [if_neg hb, if_neg h, if_neg h']

/-- A read after a write: the bytes written on their addresses, every other byte as it was. -/
theorem Memory.get_store (m : Memory) (a : Nat) (bs : List Byte) (b : Nat) :
    Memory.get (Memory.store m a bs) b =
      if a ≤ b ∧ b < a + bs.length then some (bs.getD (b - a) 0) else Memory.get m b := by
  unfold Memory.store
  rw [Memory.get_append, Memory.get_append, Memory.get_filter (fun k => decide (k < a)),
    Memory.get_filter (fun k => decide (a + bs.length ≤ k)), Memory.get_cells]
  by_cases h1 : b < a
  · have h3 : ¬ a + bs.length ≤ b := by omega
    simp [h1, Nat.not_le.2 h1, h3]
  · by_cases h2 : b < a + bs.length
    · simp [h1, h2, Nat.le_of_not_lt h1]
    · simp [h1, h2, Nat.le_of_not_lt h2]

/-- A read after a write of one byte. -/
theorem Memory.get_store_one (m : Memory) (a : Nat) (v : Byte) (b : Nat) :
    Memory.get (Memory.store m a [v]) b = if b = a then some v else Memory.get m b := by
  rw [Memory.get_store]
  by_cases h : b = a
  · subst h; simp
  · have : ¬(a ≤ b ∧ b < a + [v].length) := by simp; omega
    rw [if_neg this, if_neg h]

theorem Memory.mem_cells {bs : List Byte} {a : Nat} {p : Host.Cell} (h : p ∈ Memory.cells a bs) :
    a ≤ p.1 ∧ p.1 < a + bs.length := by
  induction bs generalizing a with
  | nil => simp [Memory.cells] at h
  | cons x bs ih =>
    rcases List.mem_cons.1 h with rfl | h
    · simp
    · have := ih h
      simp only [List.length_cons]
      omega

theorem Memory.cells_pairwise (bs : List Byte) (a : Nat) :
    (Memory.cells a bs).Pairwise (fun p q : Host.Cell => p.1 < q.1) := by
  induction bs generalizing a with
  | nil => exact List.Pairwise.nil
  | cons x bs ih => exact List.pairwise_cons.2 ⟨fun p hp => (Memory.mem_cells hp).1, ih (a + 1)⟩

/-- A write inside the buffer keeps the canonical form. -/
theorem Memory.store_wf {size : Nat} (bs : List Byte) {m : Memory} (h : m.wf size) {a : Nat}
    (ha : a + bs.length ≤ size) : (m.store a bs).wf size := by
  unfold Memory.store
  refine ⟨List.pairwise_append.2 ⟨List.pairwise_append.2
    ⟨h.1.filter _, Memory.cells_pairwise bs a, fun p hp q hq => ?_⟩, h.1.filter _, fun p hp q hq => ?_⟩, fun p hp => ?_⟩
  · have hp := of_decide_eq_true (List.mem_filter.1 hp).2
    exact lt_of_lt_of_le hp (Memory.mem_cells hq).1
  · have hq := of_decide_eq_true (List.mem_filter.1 hq).2
    rcases List.mem_append.1 hp with hp | hp
    · have hp := of_decide_eq_true (List.mem_filter.1 hp).2
      omega
    · have := Memory.mem_cells hp
      omega
  · rcases List.mem_append.1 hp with hp | hp
    · rcases List.mem_append.1 hp with hp | hp
      · exact h.2 p (List.mem_filter.1 hp).1
      · have := Memory.mem_cells hp
        omega
    · exact h.2 p (List.mem_filter.1 hp).1

/-- The host's write of RX keeps the canonical form. -/
theorem State.writeRx_wf {c : Config} {s : State} (h : s.rx.wf c.rxCap) (a : Nat) (d : Byte) :
    (s.writeRx c a d).rx.wf c.rxCap := by
  unfold State.writeRx
  split_ifs with ha
  · exact Memory.store_wf [d] h (by simpa using ha)
  · exact h

/-- What the host's write of RX can do: it stores the byte inside RXCAP and changes nothing else. -/
theorem State.writeRx_spec (c : Config) (s : State) (a : Nat) (d : Byte) (b : Nat) :
    (s.writeRx c a d).rxByte b = (if b = a ∧ a < c.rxCap then d else s.rxByte b) ∧
      s.writeRx c a d = { s with rx := (s.writeRx c a d).rx } := by
  unfold State.writeRx State.rxByte
  by_cases ha : a < c.rxCap <;> simp [ha, Memory.get_store_one]
  split_ifs <;> rfl

/-- What a frame written to TX reads as (20 R56). -/
theorem State.writeTx_txByte (s : State) (f : List Byte) (a : Nat) :
    (s.writeTx f).txByte a = if a < f.length then f.getD a 0 else s.txByte a := by
  unfold State.writeTx State.txByte
  by_cases h : a < f.length <;> simp [Memory.get_store, h]

theorem State.reset_buffers : State.reset.rx.wf hw.rxCap ∧ State.reset.tx.wf btOutLen := by
  refine ⟨⟨?_, ?_⟩, ⟨?_, ?_⟩⟩ <;> simp [State.reset]

end Sys2Proof.Machine
end

