-- ==== Sys2Proof/Laws/State.lean ====
section
/-! SUPPORT. For each update of the state, what every field reads after it: all true by rfl. -/

namespace Sys2Proof.Machine

@[simp] theorem State.complete_iface (ev : Option Event) (s : State) :
    (State.complete ev s).iface = s.iface := rfl
@[simp] theorem State.complete_ctl (ev : Option Event) (s : State) :
    (State.complete ev s).ctl = s.ctl := rfl
@[simp] theorem State.complete_rumble (ev : Option Event) (s : State) :
    (State.complete ev s).rumble = s.rumble := rfl
@[simp] theorem State.complete_lightbar (ev : Option Event) (s : State) :
    (State.complete ev s).lightbar = s.lightbar := rfl
@[simp] theorem State.complete_rx (ev : Option Event) (s : State) :
    (State.complete ev s).rx = s.rx := rfl
@[simp] theorem State.complete_tx (ev : Option Event) (s : State) :
    (State.complete ev s).tx = s.tx := rfl
@[simp] theorem State.complete_tsIn (ev : Option Event) (s : State) :
    (State.complete ev s).tsIn = s.tsIn := rfl
@[simp] theorem State.complete_rsp (ev : Option Event) (s : State) :
    (State.complete ev s).rsp = some { status := .ok, event := ev } := rfl
@[simp] theorem State.complete_txOut (ev : Option Event) (s : State) :
    (State.complete ev s).txOut = s.txOut := rfl
@[simp] theorem State.complete_regOut (ev : Option Event) (s : State) :
    (State.complete ev s).regOut = s.regOut := rfl
@[simp] theorem State.complete_ret (ev : Option Event) (s : State) :
    (State.complete ev s).ret = .none := rfl
@[simp] theorem State.complete_input (ev : Option Event) (s : State) :
    (State.complete ev s).input = s.input := rfl
@[simp] theorem State.complete_call (ev : Option Event) (s : State) :
    (State.complete ev s).call = s.call := rfl

@[simp] theorem State.answer_iface (v : Ret) (s : State) :
    (State.answer v s).iface = s.iface := rfl
@[simp] theorem State.answer_ctl (v : Ret) (s : State) :
    (State.answer v s).ctl = s.ctl := rfl
@[simp] theorem State.answer_rumble (v : Ret) (s : State) :
    (State.answer v s).rumble = s.rumble := rfl
@[simp] theorem State.answer_lightbar (v : Ret) (s : State) :
    (State.answer v s).lightbar = s.lightbar := rfl
@[simp] theorem State.answer_rx (v : Ret) (s : State) :
    (State.answer v s).rx = s.rx := rfl
@[simp] theorem State.answer_tx (v : Ret) (s : State) :
    (State.answer v s).tx = s.tx := rfl
@[simp] theorem State.answer_tsIn (v : Ret) (s : State) :
    (State.answer v s).tsIn = s.tsIn := rfl
@[simp] theorem State.answer_rsp (v : Ret) (s : State) :
    (State.answer v s).rsp = some { status := .ok, event := none } := rfl
@[simp] theorem State.answer_txOut (v : Ret) (s : State) :
    (State.answer v s).txOut = s.txOut := rfl
@[simp] theorem State.answer_regOut (v : Ret) (s : State) :
    (State.answer v s).regOut = s.regOut := rfl
@[simp] theorem State.answer_ret (v : Ret) (s : State) :
    (State.answer v s).ret = v := rfl
@[simp] theorem State.answer_input (v : Ret) (s : State) :
    (State.answer v s).input = s.input := rfl
@[simp] theorem State.answer_call (v : Ret) (s : State) :
    (State.answer v s).call = s.call := rfl

@[simp] theorem State.raise_iface (e : Status) (s : State) :
    (State.raise e s).iface = s.iface := rfl
@[simp] theorem State.raise_ctl (e : Status) (s : State) :
    (State.raise e s).ctl = s.ctl := rfl
@[simp] theorem State.raise_rumble (e : Status) (s : State) :
    (State.raise e s).rumble = s.rumble := rfl
@[simp] theorem State.raise_lightbar (e : Status) (s : State) :
    (State.raise e s).lightbar = s.lightbar := rfl
@[simp] theorem State.raise_rx (e : Status) (s : State) :
    (State.raise e s).rx = s.rx := rfl
@[simp] theorem State.raise_tx (e : Status) (s : State) :
    (State.raise e s).tx = s.tx := rfl
@[simp] theorem State.raise_tsIn (e : Status) (s : State) :
    (State.raise e s).tsIn = s.tsIn := rfl
@[simp] theorem State.raise_rsp (e : Status) (s : State) :
    (State.raise e s).rsp = some { status := e, event := none } := rfl
@[simp] theorem State.raise_txOut (e : Status) (s : State) :
    (State.raise e s).txOut = s.txOut := rfl
@[simp] theorem State.raise_regOut (e : Status) (s : State) :
    (State.raise e s).regOut = s.regOut := rfl
@[simp] theorem State.raise_ret (e : Status) (s : State) :
    (State.raise e s).ret = .none := rfl
@[simp] theorem State.raise_input (e : Status) (s : State) :
    (State.raise e s).input = s.input := rfl
@[simp] theorem State.raise_call (e : Status) (s : State) :
    (State.raise e s).call = s.call := rfl

@[simp] theorem State.resetRegs_iface (s : State) :
    (State.resetRegs s).iface = .disc := rfl
@[simp] theorem State.resetRegs_ctl (s : State) :
    (State.resetRegs s).ctl = Controller.zero := rfl
@[simp] theorem State.resetRegs_rumble (s : State) :
    (State.resetRegs s).rumble = { light := 0, heavy := 0 } := rfl
@[simp] theorem State.resetRegs_lightbar (s : State) :
    (State.resetRegs s).lightbar = { r := 0, g := 0, b := 0 } := rfl
@[simp] theorem State.resetRegs_rx (s : State) :
    (State.resetRegs s).rx = s.rx := rfl
@[simp] theorem State.resetRegs_tx (s : State) :
    (State.resetRegs s).tx = s.tx := rfl
@[simp] theorem State.resetRegs_tsIn (s : State) :
    (State.resetRegs s).tsIn = s.tsIn := rfl
@[simp] theorem State.resetRegs_rsp (s : State) :
    (State.resetRegs s).rsp = s.rsp := rfl
@[simp] theorem State.resetRegs_txOut (s : State) :
    (State.resetRegs s).txOut = s.txOut := rfl
@[simp] theorem State.resetRegs_regOut (s : State) :
    (State.resetRegs s).regOut = s.regOut := rfl
@[simp] theorem State.resetRegs_ret (s : State) :
    (State.resetRegs s).ret = s.ret := rfl
@[simp] theorem State.resetRegs_input (s : State) :
    (State.resetRegs s).input = s.input := rfl
@[simp] theorem State.resetRegs_call (s : State) :
    (State.resetRegs s).call = s.call := rfl

@[simp] theorem State.writeTx_iface (f : List Byte) (s : State) :
    (State.writeTx f s).iface = s.iface := rfl
@[simp] theorem State.writeTx_ctl (f : List Byte) (s : State) :
    (State.writeTx f s).ctl = s.ctl := rfl
@[simp] theorem State.writeTx_rumble (f : List Byte) (s : State) :
    (State.writeTx f s).rumble = s.rumble := rfl
@[simp] theorem State.writeTx_lightbar (f : List Byte) (s : State) :
    (State.writeTx f s).lightbar = s.lightbar := rfl
@[simp] theorem State.writeTx_rx (f : List Byte) (s : State) :
    (State.writeTx f s).rx = s.rx := rfl
@[simp] theorem State.writeTx_tx (f : List Byte) (s : State) :
    (State.writeTx f s).tx = s.tx.store 0 f := rfl
@[simp] theorem State.writeTx_tsIn (f : List Byte) (s : State) :
    (State.writeTx f s).tsIn = s.tsIn := rfl
@[simp] theorem State.writeTx_rsp (f : List Byte) (s : State) :
    (State.writeTx f s).rsp = s.rsp := rfl
@[simp] theorem State.writeTx_txOut (f : List Byte) (s : State) :
    (State.writeTx f s).txOut = s.txOut := rfl
@[simp] theorem State.writeTx_regOut (f : List Byte) (s : State) :
    (State.writeTx f s).regOut = s.regOut := rfl
@[simp] theorem State.writeTx_ret (f : List Byte) (s : State) :
    (State.writeTx f s).ret = s.ret := rfl
@[simp] theorem State.writeTx_input (f : List Byte) (s : State) :
    (State.writeTx f s).input = s.input := rfl
@[simp] theorem State.writeTx_call (f : List Byte) (s : State) :
    (State.writeTx f s).call = s.call := rfl

@[simp] theorem taken_iface (rest : List Action) (s : State) :
    (taken rest s).iface = s.iface := rfl
@[simp] theorem taken_ctl (rest : List Action) (s : State) :
    (taken rest s).ctl = s.ctl := rfl
@[simp] theorem taken_rumble (rest : List Action) (s : State) :
    (taken rest s).rumble = s.rumble := rfl
@[simp] theorem taken_lightbar (rest : List Action) (s : State) :
    (taken rest s).lightbar = s.lightbar := rfl
@[simp] theorem taken_rx (rest : List Action) (s : State) :
    (taken rest s).rx = s.rx := rfl
@[simp] theorem taken_tx (rest : List Action) (s : State) :
    (taken rest s).tx = s.tx := rfl
@[simp] theorem taken_tsIn (rest : List Action) (s : State) :
    (taken rest s).tsIn = s.tsIn := rfl
@[simp] theorem taken_rsp (rest : List Action) (s : State) :
    (taken rest s).rsp = s.rsp := rfl
@[simp] theorem taken_txOut (rest : List Action) (s : State) :
    (taken rest s).txOut = s.txOut := rfl
@[simp] theorem taken_regOut (rest : List Action) (s : State) :
    (taken rest s).regOut = s.regOut := rfl
@[simp] theorem taken_ret (rest : List Action) (s : State) :
    (taken rest s).ret = s.ret := rfl
@[simp] theorem taken_input (rest : List Action) (s : State) :
    (taken rest s).input = rest := rfl
@[simp] theorem taken_call (rest : List Action) (s : State) :
    (taken rest s).call = s.call := rfl

@[simp] theorem sample_iface (rest : List Action) (ts : Stamp) (s : State) :
    (sample rest ts s).iface = s.iface := rfl
@[simp] theorem sample_ctl (rest : List Action) (ts : Stamp) (s : State) :
    (sample rest ts s).ctl = s.ctl := rfl
@[simp] theorem sample_rumble (rest : List Action) (ts : Stamp) (s : State) :
    (sample rest ts s).rumble = s.rumble := rfl
@[simp] theorem sample_lightbar (rest : List Action) (ts : Stamp) (s : State) :
    (sample rest ts s).lightbar = s.lightbar := rfl
@[simp] theorem sample_rx (rest : List Action) (ts : Stamp) (s : State) :
    (sample rest ts s).rx = s.rx := rfl
@[simp] theorem sample_tx (rest : List Action) (ts : Stamp) (s : State) :
    (sample rest ts s).tx = s.tx := rfl
@[simp] theorem sample_tsIn (rest : List Action) (ts : Stamp) (s : State) :
    (sample rest ts s).tsIn = ts := rfl
@[simp] theorem sample_rsp (rest : List Action) (ts : Stamp) (s : State) :
    (sample rest ts s).rsp = s.rsp := rfl
@[simp] theorem sample_txOut (rest : List Action) (ts : Stamp) (s : State) :
    (sample rest ts s).txOut = s.txOut := rfl
@[simp] theorem sample_regOut (rest : List Action) (ts : Stamp) (s : State) :
    (sample rest ts s).regOut = s.regOut := rfl
@[simp] theorem sample_ret (rest : List Action) (ts : Stamp) (s : State) :
    (sample rest ts s).ret = s.ret := rfl
@[simp] theorem sample_input (rest : List Action) (ts : Stamp) (s : State) :
    (sample rest ts s).input = rest := rfl
@[simp] theorem sample_call (rest : List Action) (ts : Stamp) (s : State) :
    (sample rest ts s).call = s.call := rfl

@[simp] theorem callTaken_iface (s : State) :
    (callTaken s).iface = s.iface := rfl
@[simp] theorem callTaken_ctl (s : State) :
    (callTaken s).ctl = s.ctl := rfl
@[simp] theorem callTaken_rumble (s : State) :
    (callTaken s).rumble = s.rumble := rfl
@[simp] theorem callTaken_lightbar (s : State) :
    (callTaken s).lightbar = s.lightbar := rfl
@[simp] theorem callTaken_rx (s : State) :
    (callTaken s).rx = s.rx := rfl
@[simp] theorem callTaken_tx (s : State) :
    (callTaken s).tx = s.tx := rfl
@[simp] theorem callTaken_tsIn (s : State) :
    (callTaken s).tsIn = s.tsIn := rfl
@[simp] theorem callTaken_rsp (s : State) :
    (callTaken s).rsp = s.rsp := rfl
@[simp] theorem callTaken_txOut (s : State) :
    (callTaken s).txOut = s.txOut := rfl
@[simp] theorem callTaken_regOut (s : State) :
    (callTaken s).regOut = s.regOut := rfl
@[simp] theorem callTaken_ret (s : State) :
    (callTaken s).ret = s.ret := rfl
@[simp] theorem callTaken_input (s : State) :
    (callTaken s).input = s.input := rfl
@[simp] theorem callTaken_call (s : State) :
    (callTaken s).call = none := rfl

end Sys2Proof.Machine
end

