-- ==== Sys2Proof/Laws/Ops.lean ====
section
/-! SUPPORT. One lemma per shared operation: everything it can do. Later proofs cite these and do not unfold the operation. -/

namespace Sys2Proof.Machine

/-! `ENCODE_USB` writes the TX buffer and no register (42 R170). -/

@[simp] theorem encodeUsb_iface (c : Config) (s : State) : (encodeUsb c s).iface = s.iface := rfl
@[simp] theorem encodeUsb_ctl (c : Config) (s : State) : (encodeUsb c s).ctl = s.ctl := rfl
@[simp] theorem encodeUsb_rumble (c : Config) (s : State) : (encodeUsb c s).rumble = s.rumble := rfl
@[simp] theorem encodeUsb_lightbar (c : Config) (s : State) : (encodeUsb c s).lightbar = s.lightbar := rfl
@[simp] theorem encodeUsb_rx (c : Config) (s : State) : (encodeUsb c s).rx = s.rx := rfl
@[simp] theorem encodeUsb_tsIn (c : Config) (s : State) : (encodeUsb c s).tsIn = s.tsIn := rfl
@[simp] theorem encodeUsb_rsp (c : Config) (s : State) : (encodeUsb c s).rsp = s.rsp := rfl
@[simp] theorem encodeUsb_txOut (c : Config) (s : State) : (encodeUsb c s).txOut = s.txOut := rfl
@[simp] theorem encodeUsb_regOut (c : Config) (s : State) : (encodeUsb c s).regOut = s.regOut := rfl
@[simp] theorem encodeUsb_ret (c : Config) (s : State) : (encodeUsb c s).ret = s.ret := rfl
@[simp] theorem encodeUsb_input (c : Config) (s : State) : (encodeUsb c s).input = s.input := rfl
@[simp] theorem encodeUsb_call (c : Config) (s : State) : (encodeUsb c s).call = s.call := rfl

/-! `ENCODE_BT` writes the TX buffer and no register (42 R170). -/

@[simp] theorem encodeBt_iface (c : Config) (s : State) : (encodeBt c s).iface = s.iface := rfl
@[simp] theorem encodeBt_ctl (c : Config) (s : State) : (encodeBt c s).ctl = s.ctl := rfl
@[simp] theorem encodeBt_rumble (c : Config) (s : State) : (encodeBt c s).rumble = s.rumble := rfl
@[simp] theorem encodeBt_lightbar (c : Config) (s : State) : (encodeBt c s).lightbar = s.lightbar := rfl
@[simp] theorem encodeBt_rx (c : Config) (s : State) : (encodeBt c s).rx = s.rx := rfl
@[simp] theorem encodeBt_tsIn (c : Config) (s : State) : (encodeBt c s).tsIn = s.tsIn := rfl
@[simp] theorem encodeBt_rsp (c : Config) (s : State) : (encodeBt c s).rsp = s.rsp := rfl
@[simp] theorem encodeBt_txOut (c : Config) (s : State) : (encodeBt c s).txOut = s.txOut := rfl
@[simp] theorem encodeBt_regOut (c : Config) (s : State) : (encodeBt c s).regOut = s.regOut := rfl
@[simp] theorem encodeBt_ret (c : Config) (s : State) : (encodeBt c s).ret = s.ret := rfl
@[simp] theorem encodeBt_input (c : Config) (s : State) : (encodeBt c s).input = s.input := rfl
@[simp] theorem encodeBt_call (c : Config) (s : State) : (encodeBt c s).call = s.call := rfl

/-! The bytes of TX after an operation completes are those before it completes. -/

@[simp] theorem State.complete_txByte (ev : Option Event) (s : State) (a : Nat) :
    (State.complete ev s).txByte a = s.txByte a := rfl
@[simp] theorem State.answer_txByte (v : Ret) (s : State) (a : Nat) : (State.answer v s).txByte a = s.txByte a := rfl
@[simp] theorem State.raise_txByte (e : Status) (s : State) (a : Nat) : (State.raise e s).txByte a = s.txByte a := rfl

/-- What `DETECT` can answer (40 R101). -/
theorem detect_cases (n : Nat) (cur : Iface) :
    (cur ≠ .disc ∧ detect n cur = (cur, false)) ∨
      (cur = .disc ∧ n = 63 ∧ detect n cur = (.usb, false)) ∨
      (cur = .disc ∧ n ≠ 63 ∧ detect n cur = (.bt, true)) := by
  cases cur with
  | disc =>
    by_cases h : n = 63
    · simp [detect, usbFirstLen, h]
    · simp [detect, usbFirstLen, h]
  | usb => simp [detect]
  | bt => simp [detect]

/-- What `DECODE` run on its own can do (41 R120, R137). -/
theorem decodeOp_cases (c : Config) (view : List Byte) (s : State) :
    (s.iface = .disc ∧ decodeOp c view s = s.raise .ePrecond) ∨
      (s.iface ≠ .disc ∧ view.length < 42 ∧ decodeOp c view s = s.raise .eBounds) ∨
      (s.iface ≠ .disc ∧ 42 ≤ view.length ∧ decodeOp c view s =
        State.complete none { s with ctl := decodeView c (listView view) s.ctl.timestamp }) := by
  unfold decodeOp minViewLen
  by_cases h : s.iface = .disc
  · simp [h]
  · by_cases h' : view.length < 42
    · simp [h, h']
    · simp [h, h', Nat.le_of_not_lt h']

/-- What `RXR` can do (40 R100, R105). -/
theorem receive_cases (c : Config) (len : BitVec 16) (s : State) :
    (s.iface = .disc ∧ len.toNat ≠ 63 ∧
        receive c len s = State.complete (some (.featReq 0x02)) { s with iface := .bt }) ∨
      (s.iface = .disc ∧ len.toNat = 63 ∧ receive c len s =
        State.complete (some .usbRes) { s with iface := .usb, ctl := decodeView c (s.rxView 0) s.tsIn }) ∨
      (s.iface = .usb ∧ len.toNat < 42 ∧ receive c len s = s.raise .eBounds) ∨
      (s.iface = .usb ∧ 42 ≤ len.toNat ∧
        receive c len s = State.complete none { s with ctl := decodeView c (s.rxView 0) s.tsIn }) ∨
      (s.iface = .bt ∧ len.toNat < 44 ∧ receive c len s = s.raise .eBounds) ∨
      (s.iface = .bt ∧ 44 ≤ len.toNat ∧ receive c len s =
        State.complete (some (.featReq 0x02)) { s with ctl := decodeView c (s.rxView 2) s.tsIn }) := by
  obtain ⟨iface, ctl, rumble, lightbar, rx, tx, tsIn, rsp, txOut, regOut, ret, input⟩ := s
  cases iface with
  | disc =>
    by_cases h : len.toNat = 63
    · simp [receive, detect, rawLen, usbFirstLen, viewBase, minViewLen, reportEvent, h]
    · simp [receive, detect, rawLen, usbFirstLen, featureReportId, h]
  | usb =>
    by_cases h : len.toNat < 42
    · simp [receive, detect, rawLen, viewBase, minViewLen, h]
    · simp [receive, detect, rawLen, viewBase, minViewLen, reportEvent, h, Nat.le_of_not_lt h]
  | bt =>
    by_cases h : len.toNat < 44
    · simp [receive, detect, rawLen, viewBase, minViewLen, btStrip, h]
    · simp [receive, detect, rawLen, viewBase, minViewLen, btStrip, reportEvent, featureReportId, h, Nat.le_of_not_lt h]

/-- What `SEND` can do (42 R169). -/
theorem send_cases (c : Config) (s : State) :
    (s.iface = .disc ∧ send c s = s.raise .ePrecond) ∨
      (s.iface = .usb ∧
        send c s = State.complete (some (.tx 0x05 1 (usbBody (encodeUsb c s)))) (encodeUsb c s)) ∨
      (s.iface = .bt ∧
        send c s = State.complete (some (.tx 0x11 2 (btBody (encodeBt c s)))) (encodeBt c s)) := by
  unfold send
  cases h : s.iface <;> simp [usbOutRid, btOutRid, btStrip]

/-- A slice of TX inside a frame just written from address 0 is that slice of the frame (20 R56). -/
theorem txSlice_writeTx (s : State) (f : List Byte) (off n : Nat) (h : off + n ≤ f.length) :
    (s.writeTx f).txSlice off n = (f.drop off).take n := by
  unfold State.txSlice
  apply List.ext_getElem
  · simp; omega
  · intro i h1 h2
    simp only [List.length_map, List.length_range] at h1
    have hi : off + i < f.length := by omega
    simp [State.writeTx_txByte, hi]

theorem frameUsb_length (c : Config) (m : Rumble) (l : Lightbar) : (frameUsb c m l).length = 16 := rfl

theorem frameBtHead_length (c : Config) (m : Rumble) (l : Lightbar) : (frameBtHead c m l).length = 75 := by
  simp [frameBtHead]

/-- A byte of a list after one byte of it was set. -/
theorem getD_set_byte (f : List Byte) (i : Nat) (v : Byte) (o : Nat) (ho : o < f.length) :
    (f.set i v).getD o 0 = if o = i then v else f.getD o 0 := by
  simp only [List.getD_eq_getElem?_getD, List.getElem?_set]
  by_cases h : o = i
  · subst h; simp [ho]
  · have h' : ¬ i = o := fun e => h e.symm
    simp [h, h']

theorem getD_zeros (n o : Nat) : (List.replicate n (0 : Byte)).getD o 0 = 0 := by
  induction n generalizing o with
  | zero => rfl
  | succ n ih =>
    cases o with
    | zero => rfl
    | succ o => exact ih o

/-- Each byte of the Bluetooth frame before its trailer (42 R167): the last of the rule's writes to that offset. -/
theorem frameBtHead_getD (c : Config) (m : Rumble) (l : Lightbar) (o : Nat) (ho : o < 75) :
    (frameBtHead c m l).getD o 0 =
      if o = c.btBOff then l.b else if o = c.btGOff then l.g else if o = c.btROff then l.r
      else if o = c.btHeavyOff then m.heavy else if o = c.btLightOff then m.light
      else if o = c.btFlagsOff then c.btFlagsVal else if o = c.btPollOff then c.btPollVal
      else if o = 1 then 0x11 else if o = 0 then 0xA2 else 0 := by
  unfold frameBtHead
  repeat rw [getD_set_byte _ _ _ _ (by simp only [List.length_set, List.length_replicate]; exact ho)]
  rw [getD_zeros]
  rfl

theorem trailer_length (c : Config) (x : BitVec 32) : (trailer c x).length = 4 := by
  unfold trailer; split_ifs <;> rfl

theorem frameBt_length (c : Config) (m : Rumble) (l : Lightbar) : (frameBt c m l).length = 79 := by
  simp [frameBt, frameBtHead_length, trailer_length]

/-- The body `SEND` names on USB is the frame without its report id (42 R166). -/
theorem usbBody_encodeUsb (c : Config) (s : State) :
    usbBody (encodeUsb c s) = (frameUsb c s.rumble s.lightbar).drop 1 := by
  unfold usbBody encodeUsb
  rw [txSlice_writeTx _ _ _ _ (by simp [frameUsb_length, usbOutLen])]
  exact List.take_of_length_le (by simp [frameUsb_length, usbOutLen])

/-- The body `SEND` names on Bluetooth is the frame without its pre-header (42 R167). -/
theorem btBody_encodeBt (c : Config) (s : State) :
    btBody (encodeBt c s) = (frameBt c s.rumble s.lightbar).drop 2 := by
  unfold btBody encodeBt
  rw [txSlice_writeTx _ _ _ _ (by simp [frameBt_length, btOutLen, btStrip])]
  exact List.take_of_length_le (by simp [frameBt_length, btOutLen, btStrip])

/-- The USB body, 15 bytes (42 R174 b). -/
theorem usbBody_bytes (c : Config) (s : State) : usbBody (encodeUsb c s) =
    [c.usbFlags, 0, 0, s.rumble.light, s.rumble.heavy, s.lightbar.r, s.lightbar.g, s.lightbar.b] ++ List.replicate 7 0 :=
  usbBody_encodeUsb c s

/-- The Bluetooth body, 77 bytes (42 R174 c), at this hardware's parameters. -/
theorem btBody_bytes (s : State) : btBody (encodeBt hw s) =
    [0x80, 0, 0xFF, 0, 0, s.rumble.light, s.rumble.heavy, s.lightbar.r, s.lightbar.g, s.lightbar.b] ++
      List.replicate 63 0 ++ trailer hw (crc32 hw (frameBtHead hw s.rumble s.lightbar)) :=
  btBody_encodeBt hw s

/-- A value in 0..255 is kept by `CLAMP8` (42 R174 a). -/
theorem clamp8_of_range (v : BitVec 32) (h0 : 0 ≤ v.toInt) (h1 : v.toInt ≤ 255) : ((clamp8 v).toNat : Int) = v.toInt := by
  unfold clamp8 clampInt setterValue
  rw [if_neg (by omega), if_neg (by omega), BitVec.toNat_ofInt]
  omega

/-- `SEND` changes the TX buffer, the response and the returned value, and no register (42 R169). -/
theorem send_frame (c : Config) (s : State) :
    send c s = { s with tx := (send c s).tx, rsp := (send c s).rsp, ret := .none } := by
  rcases send_cases c s with ⟨_, e⟩ | ⟨_, e⟩ | ⟨_, e⟩ <;> rw [e] <;> apply State.ext <;> simp

/-- `SEND` on USB: the response, and every byte of TX (42 R166, R169). -/
theorem send_usb (c : Config) (s : State) (h : s.iface = .usb) :
    (send c s).rsp = some { status := .ok, event := some (.tx 0x05 1 ((frameUsb c s.rumble s.lightbar).drop 1)) } ∧
      ∀ a, (send c s).txByte a =
        if a < (frameUsb c s.rumble s.lightbar).length then (frameUsb c s.rumble s.lightbar).getD a 0 else s.txByte a := by
  rcases send_cases c s with ⟨h', _⟩ | ⟨_, e⟩ | ⟨h', _⟩
  · simp [h] at h'
  · rw [e]
    exact ⟨by simp [usbBody_encodeUsb], State.writeTx_txByte s (frameUsb c s.rumble s.lightbar)⟩
  · simp [h] at h'

/-- `SEND` on Bluetooth: the response, and every byte of TX (42 R167, R169). -/
theorem send_bt (c : Config) (s : State) (h : s.iface = .bt) :
    (send c s).rsp = some { status := .ok, event := some (.tx 0x11 2 ((frameBt c s.rumble s.lightbar).drop 2)) } ∧
      ∀ a, (send c s).txByte a =
        if a < (frameBt c s.rumble s.lightbar).length then (frameBt c s.rumble s.lightbar).getD a 0 else s.txByte a := by
  rcases send_cases c s with ⟨h', _⟩ | ⟨h', _⟩ | ⟨_, e⟩
  · simp [h] at h'
  · simp [h] at h'
  · rw [e]
    exact ⟨by simp [btBody_encodeBt], State.writeTx_txByte s (frameBt c s.rumble s.lightbar)⟩

/-- `SEND` before resolution (42 R169). -/
theorem send_disc (c : Config) (s : State) (h : s.iface = .disc) : send c s = s.raise .ePrecond := by
  rcases send_cases c s with ⟨_, e⟩ | ⟨h', _⟩ | ⟨h', _⟩
  · exact e
  · simp [h] at h'
  · simp [h] at h'

/-- Every operation leaves `call` as it was: none makes another run (00 R6). -/
theorem exec_call (i : Instr) (s t : State) (h : exec i s = .next t) : t.call = s.call := by
  have hs : ∀ s : State, (send hw s).call = s.call := fun s => by rw [send_frame]
  cases i <;> cases h <;> first | rfl | exact hs _ | skip
  · rename_i len rid
    unfold receive
    dsimp only
    split_ifs <;> rfl
  · rename_i view
    unfold decodeOp
    split_ifs <;> rfl

/-- What a step can do (00 R5, R6, 30 R85). -/
theorem step_cases (s : State) :
    (∃ op l i, s.call = some (op, l) ∧ decodeCall op l = .ok i ∧ step s = exec i (callTaken s)) ∨
      (∃ op l why, s.call = some (op, l) ∧ decodeCall op l = .error why ∧ step s = badCall why (callTaken s)) ∨
      (s.call = none ∧
        ((s.input = [] ∧ step s = .next s) ∨
          (∃ rest, s.input = .reset :: rest ∧ step s = .next (hostReset (taken rest s))) ∨
          (∃ a d rest, s.input = .rxWrite a d :: rest ∧ step s = .next (hostRxWrite hw a d (taken rest s))) ∨
          (∃ a rest, s.input = .txRead a :: rest ∧ step s = hostTxRead a (taken rest s)) ∨
          (∃ a rest, s.input = .regRead a :: rest ∧ step s = .next (hostRegRead a (taken rest s))) ∨
          (∃ w ts rest i, s.input = .present w ts :: rest ∧ decodeCmd w = .ok i ∧ step s = exec i (sample rest ts s)) ∨
          (∃ w ts rest why, s.input = .present w ts :: rest ∧ decodeCmd w = .error why ∧
            step s = illegalCommand why (sample rest ts s)))) := by
  unfold step
  cases hc : s.call with
  | some p =>
    obtain ⟨op, l⟩ := p
    cases hd : decodeCall op l <;> simp [hd]
  | none =>
    cases h : s.input with
    | nil => simp [idle]
    | cons a rest =>
      cases a with
      | present w ts => cases hd : decodeCmd w <;> simp [hd]
      | _ => simp

/-- A run of one more step, by its first step. -/
theorem run_step (n : Nat) (s t : State) (h : step s = .next t) : core.run (n + 1) s = core.run n t := by
  have h' : core.step s = .next t := h
  simp only [Host.Core.run, h']

/-- A run that ends in a next state takes a first step. -/
theorem run_next (n : Nat) (s t : State) (h : core.run (n + 1) s = .next t) :
    ∃ u, step s = .next u ∧ core.run n u = .next t := by
  simp only [Host.Core.run] at h
  cases hs : core.step s with
  | next u => rw [hs] at h; exact ⟨u, hs, h⟩
  | fault r => rw [hs] at h; cases h
  | refused r => rw [hs] at h; cases h

end Sys2Proof.Machine
end

