-- ==== Sys2Proof/Laws/PerInstr.lean ====
section
/-! SUPPORT. Per operation: decoding the words of a well-formed operation gives it back (30 R72 and the opcode table's rows). -/

namespace Sys2Proof.Laws.RoundTrip

/-- Decoding the words of `i` gives `i` back, if it is well-formed. -/
def Statement (i : Instr) : Prop := i.wf = true → Sys2Proof.decode (encode i) = .ok i

/-- The low part of a concatenation. -/
theorem extract_low {v w : Nat} (a : BitVec v) (b : BitVec w) : (a ++ b).extractLsb' 0 w = b := by
  ext i hi
  simp [BitVec.getLsbD_append, hi]

/-- The high part of a concatenation. -/
theorem extract_high {v w : Nat} (a : BitVec v) (b : BitVec w) : (a ++ b).extractLsb' w v = a := by
  ext i hi
  simp [BitVec.getLsbD_append, hi]

/-- The middle part of a concatenation of three. -/
theorem extract_mid {u v w : Nat} (a : BitVec u) (b : BitVec v) (c : BitVec w) :
    (a ++ b ++ c).extractLsb' w v = b := by
  ext i hi
  simp [BitVec.getLsbD_append, hi]

/-- The high part of a concatenation of three. -/
theorem extract_top {u v w : Nat} (a : BitVec u) (b : BitVec v) (c : BitVec w) {k : Nat} (hk : k = v + w) :
    (a ++ b ++ c).extractLsb' k u = a := by
  subst hk
  ext i hi
  have h1 : ¬ v + w + i < w := by omega
  have h2 : ¬ v + w + i - w < v := by omega
  have h3 : v + w + i - w - v = i := by omega
  simp [BitVec.getLsbD_append, hi, h1, h2, h3]

/-- Two adjoining fields make the field that spans them. -/
theorem extract_adjoin {n : Nat} (v : BitVec n) (a l1 l2 : Nat) {b : Nat} (hb : b = a + l1) :
    v.extractLsb' b l2 ++ v.extractLsb' a l1 = v.extractLsb' a (l2 + l1) := by
  subst hb
  apply BitVec.eq_of_getLsbD_eq
  intro i hi
  simp only [BitVec.getLsbD_append, BitVec.getLsbD_extractLsb']
  by_cases h : i < l1
  · simp [h, hi]
  · have h1 : a + l1 + (i - l1) = a + i := by omega
    have h2 : i - l1 < l2 := by omega
    simp [h, hi, h1, h2]

/-- A value is the concatenation of its four bytes (00 R8). -/
theorem bytes_append (v : BitVec 32) :
    v.extractLsb' 24 8 ++ v.extractLsb' 16 8 ++ v.extractLsb' 8 8 ++ v.extractLsb' 0 8 = v := by
  rw [extract_adjoin v 16 8 8 rfl, extract_adjoin v 8 8 16 rfl, extract_adjoin v 0 8 24 rfl]
  exact BitVec.extractLsb'_eq_self

/-- A 24-bit value is the concatenation of its three bytes. -/
theorem bytes_append24 (v : BitVec 24) : v.extractLsb' 16 8 ++ v.extractLsb' 8 8 ++ v.extractLsb' 0 8 = v := by
  rw [extract_adjoin v 8 8 8 rfl, extract_adjoin v 0 8 16 rfl]
  exact BitVec.extractLsb'_eq_self

theorem cmdOp_cmdWord (op : Byte) (arg : BitVec 32) : cmdOp (cmdWord op arg) = op := extract_high op arg

theorem cmdArg_cmdWord (op : Byte) (arg : BitVec 32) : cmdArg (cmdWord op arg) = arg := extract_low op arg

theorem decodeCall_clamp8 (b0 b1 b2 b3 : Byte) :
    decodeCall .clamp8 [b0, b1, b2, b3] = .ok (.clamp8 (b3 ++ b2 ++ b1 ++ b0)) := rfl

theorem decodeCall_detect (b0 b1 b2 : Byte) (cur : Iface) (h0 : (b2 ++ b1 ++ b0).extractLsb' 18 6 = 0)
    (h1 : (b2 ++ b1 ++ b0).extractLsb' 0 2 = cur.bits) :
    decodeCall .detect [b0, b1, b2] = .ok (.detect ((b2 ++ b1 ++ b0).extractLsb' 2 16).toNat cur) := by
  have h3 : Iface.ofBits cur.bits = some cur := by cases cur <;> rfl
  unfold decodeCall
  simp only [h0, h1, h3, if_true]

theorem nop (arg : BitVec 32) : Statement (.nop arg) := fun _ => by
  simp [encode, decode, decodeCmd, cmdOp_cmdWord, cmdArg_cmdWord]
theorem rst (arg : BitVec 32) : Statement (.rst arg) := fun _ => by
  simp [encode, decode, decodeCmd, cmdOp_cmdWord, cmdArg_cmdWord]
theorem rxr (len : BitVec 16) (rid : Byte) : Statement (.rxr len rid) := fun _ => by
  have h0 : ((0 : Byte) ++ rid ++ len : BitVec 32).extractLsb' 24 8 = (0 : Byte) := by
    have h := extract_top (0 : Byte) rid len (k := 24) (by norm_num)
    exact h
  have h1 : ((0 : Byte) ++ rid ++ len : BitVec 32).extractLsb' 0 16 = len := extract_low ((0 : Byte) ++ rid) len
  have h2 : ((0 : Byte) ++ rid ++ len : BitVec 32).extractLsb' 16 8 = rid := extract_mid (0 : Byte) rid len
  simp only [encode, decode, decodeCmd, cmdOp_cmdWord, rxrWord, cmdArg_cmdWord, h0, h1, h2]
  rfl
theorem srl (val : BitVec 32) : Statement (.srl val) := fun _ => by
  simp [encode, decode, decodeCmd, cmdOp_cmdWord, cmdArg_cmdWord]
theorem srh (val : BitVec 32) : Statement (.srh val) := fun _ => by
  simp [encode, decode, decodeCmd, cmdOp_cmdWord, cmdArg_cmdWord]
theorem slr (val : BitVec 32) : Statement (.slr val) := fun _ => by
  simp [encode, decode, decodeCmd, cmdOp_cmdWord, cmdArg_cmdWord]
theorem slg (val : BitVec 32) : Statement (.slg val) := fun _ => by
  simp [encode, decode, decodeCmd, cmdOp_cmdWord, cmdArg_cmdWord]
theorem slb (val : BitVec 32) : Statement (.slb val) := fun _ => by
  simp [encode, decode, decodeCmd, cmdOp_cmdWord, cmdArg_cmdWord]
theorem enc (arg : BitVec 32) : Statement (.enc arg) := fun _ => by
  simp [encode, decode, decodeCmd, cmdOp_cmdWord, cmdArg_cmdWord]
theorem decode (view : List Byte) : Statement (.decode view) := fun _ => rfl
theorem detect (rawLength : Nat) (cur : Iface) : Statement (.detect rawLength cur) := fun h => by
  have hn : rawLength < 65536 := by simpa [Instr.wf] using h
  let n : BitVec 24 := (0 : BitVec 6) ++ BitVec.ofNat 16 rawLength ++ cur.bits
  have h0 : n.extractLsb' 18 6 = (0 : BitVec 6) := by
    have h := extract_top (0 : BitVec 6) (BitVec.ofNat 16 rawLength) cur.bits (k := 18) (by norm_num)
    exact h
  have h1 : n.extractLsb' 0 2 = cur.bits := extract_low ((0 : BitVec 6) ++ BitVec.ofNat 16 rawLength) cur.bits
  have h2 : (n.extractLsb' 2 16).toNat = rawLength := by
    rw [show n.extractLsb' 2 16 = BitVec.ofNat 16 rawLength from
      extract_mid (0 : BitVec 6) (BitVec.ofNat 16 rawLength) cur.bits, BitVec.toNat_ofNat, Nat.mod_eq_of_lt hn]
  have e := bytes_append24 n
  refine (decodeCall_detect _ _ _ cur (by rw [e]; exact h0) (by rw [e]; exact h1)).trans ?_
  rw [e, h2]
theorem normStick (raw : Byte) : Statement (.normStick raw) := fun _ => rfl
theorem normTrig (raw : Byte) : Statement (.normTrig raw) := fun _ => rfl
theorem batt (n : BitVec 4) (c : Bool) : Statement (.batt n c) := fun _ => by
  revert n c; unfold Sys2Proof.decode encode; decide
theorem slot (b0 b1 b2 b3 : Byte) : Statement (.slot b0 b1 b2 b3) := fun _ => rfl
theorem clamp8 (v : BitVec 32) : Statement (.clamp8 v) := fun _ => by
  refine (decodeCall_clamp8 _ _ _ _).trans ?_
  rw [bytes_append]
theorem send : Statement .send := fun _ => rfl
theorem encodeUsb : Statement .encodeUsb := fun _ => rfl
theorem encodeBt : Statement .encodeBt := fun _ => rfl
theorem crc32 (m : List Byte) : Statement (.crc32 m) := fun _ => rfl

end Sys2Proof.Laws.RoundTrip
end

