-- ==== Sys2Proof/Tests/Slice0.lean ====
section
/-! SUPPORT. Tests on fixed values, taken from the spec's encodings and from its vectors T14 to T96 (spec 95), and for every statement
with hypotheses a witness that meets them. -/

open Sys2Proof Sys2Proof.Machine Sys2Proof.Safety

/-- The next state of an outcome, if it is one. -/
def Sys2Proof.Tests.after (o : Host.Outcome State Fault Refusal) : Option State :=
  match o with
  | .next t => some t
  | .fault _ => none
  | .refused _ => none

namespace Sys2Proof.Tests

/-- Reset, with the transport resolved to USB. -/
def onUsb : State := { State.reset with iface := .usb }

/-- Reset, with the transport resolved to Bluetooth. -/
def onBt : State := { State.reset with iface := .bt }

/-- The registers of the spec's example S6: light 10, heavy 200, colour 0, 255, 128. -/
def s6 (i : Iface) : State := { State.reset with iface := i, rumble := ⟨10, 200⟩, lightbar := ⟨0, 255, 128⟩ }

/-- The view of vector T40 (95, 2.5). -/
def t40 : List Byte :=
  [0x00, 0xFF, 0x80, 0xC0, 0x85, 0x41, 0xFE, 0x80, 0xFF, 0xDE, 0xAD, 0xBE, 0xEF, 0x34, 0x12, 0xFF, 0xFF, 0x00, 0x80, 0xFF, 0xFF] ++
  [0x00, 0x80, 0xFF, 0x7F, 0x11, 0x22, 0x33, 0x44, 0xFB, 0x55, 0x66, 0x77, 0x88, 0x05, 0x34, 0xA2, 0x5B, 0x85, 0x34, 0xA2, 0x5B]

/-- Program P1 before its third line: T40 in RX, the timestamp driven, the blue component set. -/
def beforeT40 : State :=
  { State.reset with rx := Memory.cells 0 (t40 ++ List.replicate 21 0), tsIn := 1000, lightbar := ⟨0, 0, 64⟩ }

/-- `beforeT40`, and the host presents the first report. -/
def t40Presented : State := { beforeT40 with input := [.present 0x020001003F 1000] }

/-! ### Well-formedness -/

theorem test_wf_refuses_a_length_over_16_bits : (Instr.detect 65536 .disc).wf = false := by decide
theorem test_wf_accepts_the_longest_length : (Instr.detect 65535 .bt).wf = true := by decide

/-! ### Words, one of each operation: the bits of 30 R72 to R74 and of the opcode table -/

theorem test_word_nop : decode (.cmd 0x00DEADBEEF) = .ok (.nop 0xDEADBEEF) := by decide
theorem test_word_rst : decode (.cmd 0x0100000000) = .ok (.rst 0) := by decide
theorem test_word_rxr : decode (.cmd 0x020011004E) = .ok (.rxr 78 17) := by decide
theorem test_word_srl : decode (.cmd 0x10FFFFFFFB) = .ok (.srl (-5)) := by decide
theorem test_word_srh : decode (.cmd 0x11000000C8) = .ok (.srh 200) := by decide
theorem test_word_slr : decode (.cmd 0x1200000000) = .ok (.slr 0) := by decide
theorem test_word_slg : decode (.cmd 0x13000000FF) = .ok (.slg 255) := by decide
theorem test_word_slb : decode (.cmd 0x1400000040) = .ok (.slb 64) := by decide
theorem test_word_enc : decode (.cmd 0x2000000000) = .ok (.enc 0) := by decide
theorem test_word_decode : decode (.call .decode t40) = .ok (.decode t40) := by decide
/-- `llllllllllllllllcc` with length 63 and `IFACE` = 2: 0b11111110. -/
theorem test_word_detect : decode (.call .detect [0b11111110, 0, 0]) = .ok (.detect 63 .bt) := by decide
theorem test_word_norm_stick : decode (.call .normStick [0x81]) = .ok (.normStick 0x81) := by decide
theorem test_word_norm_trig : decode (.call .normTrig [0x33]) = .ok (.normTrig 0x33) := by decide
/-- `Cnnnn` with the charging flag and nibble 11. -/
theorem test_word_batt : decode (.call .batt [0b00011011]) = .ok (.batt 11 true) := by decide
theorem test_word_slot : decode (.call .slot [0x05, 0x34, 0xA2, 0x5B]) = .ok (.slot 0x05 0x34 0xA2 0x5B) := by decide
theorem test_word_clamp8 : decode (.call .clamp8 [0xE7, 0x03, 0x00, 0x00]) = .ok (.clamp8 999) := by decide
theorem test_word_send : decode (.call .send []) = .ok .send := by decide
theorem test_word_encode_usb : decode (.call .encodeUsb []) = .ok .encodeUsb := by decide
theorem test_word_encode_bt : decode (.call .encodeBt []) = .ok .encodeBt := by decide
theorem test_word_crc32 : decode (.call .crc32 [0xA2, 0x11]) = .ok (.crc32 [0xA2, 0x11]) := by decide
/-- T91 and T95. -/
theorem test_words_illegal :
    decode (.cmd 0x0201000040) = .error (.rxrHighByte 1) ∧ decode (.cmd 0x0300000000) = .error (.unknownOp 3) ∧
    decode (.cmd 0x1500000000) = .error (.unknownOp 0x15) ∧ decode (.cmd 0x3000000000) = .error (.unknownOp 0x30) ∧
    decode (.cmd 0xFFFFFFFFFF) = .error (.unknownOp 0xFF) := by decide
theorem test_words_of_the_table :
    decodeTableWord 40 0x020001003F = some (.rxr 63 1) ∧ decodeTableWord 8 0x81 = some (.normStick 0x81) ∧
    decodeTableWord 18 254 = some (.detect 63 .bt) ∧ decodeTableWord 32 0x5BA23405 = some (.slot 0x05 0x34 0xA2 0x5B) := by
  decide

/-! ### One step of each operation -/

theorem test_nop_keeps_a_register : (after (exec (.nop 5) (s6 .usb))).map (·.rumble) = some ⟨10, 200⟩ := by decide
/-- T96. -/
theorem test_rst_clears : (after (exec (.rst 0) (s6 .usb))).map (fun t => (t.iface, t.lightbar)) = some (.disc, ⟨0, 0, 0⟩) := by
  decide
/-- The register dump of 95, 2.5. -/
theorem test_rxr_t40_dump :
    (after (step t40Presented)).map (fun t => (List.range 64).map fun a => (t.regByte (BitVec.ofNat 6 a)).toNat) = some (
      [0x01, 0x64, 0x01, 0x01, 0x80, 0x7F, 0x00, 0x40, 0x80, 0xFF, 0x34, 0x12, 0xFF, 0xFF, 0x00, 0x80] ++
      [0xFF, 0xFF, 0x00, 0x80, 0xFF, 0x7F, 0xC1, 0x41, 0x02, 0x00, 0x05, 0x00, 0x34, 0x02, 0xBA, 0x05] ++
      [0x00, 0x00, 0x00, 0x00, 0x00, 0x00, 0x00, 0x00, 0xE8, 0x03, 0x00, 0x00, 0x00, 0x00, 0x00, 0x00] ++
      [0x00, 0x00, 0x00, 0x00, 0x40, 0x00, 0x00, 0x00, 0x00, 0x00, 0x00, 0x00, 0x00, 0x00, 0x00, 0x00]) := by decide +kernel
/-- Program P2, third report: 43 bytes on Bluetooth. -/
theorem test_rxr_short_on_bluetooth :
    (after (exec (.rxr 43 17) onBt)).bind (fun t => t.rsp.map Response.word) = some 0x00000002 := by decide
/-- T64 and T70. -/
theorem test_srl_clamps :
    (after (exec (.srl (-5)) (s6 .usb))).map (·.rumble.light) = some 0 ∧
    (after (exec (.srl 999) (s6 .usb))).map (·.rumble.light) = some 255 := by decide +kernel
/-- T73. -/
theorem test_srh_before_resolution :
    (after (exec (.srh 999) State.reset)).map (fun t => (t.rumble.heavy, t.rsp.map Response.word)) = some (255, some 1) := by decide
/-- T72. -/
theorem test_slr_300 : (after (exec (.slr 300) onUsb)).bind (fun t => t.rsp) =
    some ⟨.ok, some (.tx 0x05 1 [0xF3, 0, 0, 0, 0, 0xFF, 0, 0, 0, 0, 0, 0, 0, 0, 0])⟩ := by decide +kernel
/-- T72. -/
theorem test_slg_255 : (after (exec (.slg 255) onUsb)).bind (fun t => t.rsp) =
    some ⟨.ok, some (.tx 0x05 1 [0xF3, 0, 0, 0, 0, 0, 0xFF, 0, 0, 0, 0, 0, 0, 0, 0])⟩ := by decide +kernel
/-- T72. -/
theorem test_slb_64 : (after (exec (.slb 64) onUsb)).bind (fun t => t.rsp) =
    some ⟨.ok, some (.tx 0x05 1 [0xF3, 0, 0, 0, 0, 0, 0, 0x40, 0, 0, 0, 0, 0, 0, 0])⟩ := by decide +kernel
/-- T74, and the response word of T76. -/
theorem test_enc_response_words :
    (after (exec (.enc 0) State.reset)).bind (fun t => t.rsp.map Response.word) = some 0x00000001 ∧
    (after (exec (.enc 0) (s6 .usb))).bind (fun t => t.rsp.map Response.word) = some 0x010F0504 := by decide +kernel
/-- T43: 42 bytes of FF. -/
theorem test_decode_all_ones : (after (exec (.decode (List.replicate 42 0xFF)) onUsb)).map (fun t =>
    (t.ctl.stick, t.ctl.accel, t.ctl.btn, t.ctl.battery, t.ctl.touchN)) =
    some (#v[127, 127, 127, 127], #v[-1, -1, -1], 0x3FF0F, 136, 0) := by decide +kernel
/-- T44: 42 bytes of 00. -/
theorem test_decode_all_zeros : (after (exec (.decode (List.replicate 42 0x00)) onUsb)).map (fun t =>
    (t.ctl.stick, t.ctl.btn, t.ctl.battery, t.ctl.touchN)) = some (#v[-128, -128, -128, -128], 0x10, 0, 2) := by decide +kernel
theorem test_detect_78 : (after (exec (.detect 78 .disc) State.reset)).map (·.ret) = some (.detect .bt true) := by decide
/-- T14 and T22. -/
theorem test_norm_stick_ends :
    (after (exec (.normStick 0x00) State.reset)).map (·.ret) = some (.byte 0x80) ∧
    (after (exec (.normStick 0xFF) State.reset)).map (·.ret) = some (.byte 0x7F) := by decide
/-- T23 and T24: dead zones 13 and 128. -/
theorem test_norm_stick_dead_zone :
    [114, 115, 116, 140, 141, 255].map (normStick { hw with stickDz := 13 }) = [-14, -13, 0, 0, 13, 127] ∧
    [0, 1, 255].map (normStick { hw with stickDz := 128 }) = [-128, 0, 0] := by decide
theorem test_norm_trig_51 : (after (exec (.normTrig 0x33) State.reset)).map (·.ret) = some (.byte 51) := by decide
/-- T26: dead zone 26. -/
theorem test_norm_trig_dead_zone : [0, 25, 26, 27, 128, 255].map (normTrig { hw with trigDz := 26 }) = [26, 26, 26, 27, 128, 255] := by
  decide
/-- T53. -/
theorem test_batt_ends :
    (after (exec (.batt 15 true) State.reset)).map (·.ret) = some (.byte 136) ∧
    (after (exec (.batt 5 false) State.reset)).map (·.ret) = some (.byte 62) := by decide
/-- T54 and T55. -/
theorem test_slot_t54 :
    (after (exec (.slot 0x05 0x34 0xA2 0x5B) State.reset)).map (·.ret) = some (.slot (some ⟨5, 564, 1466⟩)) ∧
    (after (exec (.slot 0x85 0x34 0xA2 0x5B) State.reset)).map (·.ret) = some (.slot none) := by decide
/-- T63 and T69. -/
theorem test_clamp8_ends :
    (after (exec (.clamp8 0x80000000) State.reset)).map (·.ret) = some (.byte 0) ∧
    (after (exec (.clamp8 256) State.reset)).map (·.ret) = some (.byte 255) := by decide
/-- T76. -/
theorem test_send_s6 : (after (exec .send (s6 .usb))).bind (fun t => t.rsp) =
    some ⟨.ok, some (.tx 0x05 1 [0xF3, 0, 0, 0x0A, 0xC8, 0, 0xFF, 0x80, 0, 0, 0, 0, 0, 0, 0])⟩ := by decide +kernel
/-- T76: light before heavy, at offsets 4 and 5. -/
theorem test_encode_usb_s6 : (after (exec .encodeUsb (s6 .bt))).map (fun t => (List.range 16).map t.txByte) =
    some [0x05, 0xF3, 0, 0, 0x0A, 0xC8, 0, 0xFF, 0x80, 0, 0, 0, 0, 0, 0, 0] := by decide +kernel
/-- T80: the named bytes of the frame `ENCODE_BT` leaves in TX. -/
theorem test_encode_bt_s6 : (after (exec .encodeBt (s6 .usb))).map (fun t => (List.range 12).map t.txByte) =
    some [0xA2, 0x11, 0x80, 0, 0xFF, 0, 0, 0x0A, 0xC8, 0, 0xFF, 0x80] := by decide +kernel
/-- T80: the checksum of the 75 bytes, cut into four parts. -/
theorem test_checksum_s6 : crc32 hw (frameBtHead hw ⟨10, 200⟩ ⟨0, 255, 128⟩) = 0xE6410B76 := by
  have h0 : frameBtHead hw ⟨10, 200⟩ ⟨0, 255, 128⟩ = [0xA2, 0x11, 0x80, 0, 0xFF, 0, 0, 0x0A, 0xC8, 0, 0xFF, 0x80] ++
      (List.replicate 21 0 ++ (List.replicate 21 0 ++ List.replicate 21 0)) := by decide +kernel
  have h1 : [0xA2, 0x11, 0x80, 0, 0xFF, 0, 0, 0x0A, 0xC8, 0, 0xFF, 0x80].foldl (crcByte hw) hw.crcInit = 0x3804A7E1 := by
    decide +kernel
  have h2 : (List.replicate 21 0).foldl (crcByte hw) 0x3804A7E1 = 0xD3D58766 := by decide +kernel
  have h3 : (List.replicate 21 0).foldl (crcByte hw) 0xD3D58766 = 0x35B31E03 := by decide +kernel
  have h4 : (List.replicate 21 0).foldl (crcByte hw) 0x35B31E03 = 0x19BEF489 := by decide +kernel
  rw [crc32, h0, List.foldl_append, List.foldl_append, List.foldl_append, h1, h2, h3, h4]
  decide
/-- T80: the trailer in both orders. -/
theorem test_trailer_s6 : trailer hw 0xE6410B76 = [0x76, 0x0B, 0x41, 0xE6] ∧
    trailer { hw with btCrcLsbFirst := false } 0xE6410B76 = [0xE6, 0x41, 0x0B, 0x76] := by decide +kernel
/-- T86. -/
theorem test_crc32_check_value : (after (exec (.crc32 [0x31, 0x32, 0x33, 0x34, 0x35, 0x36, 0x37, 0x38, 0x39]) State.reset)).map (·.ret) =
    some (.crc 0xCBF43926) := by decide +kernel
/-- The very next step runs the operation, presented or called. -/
theorem test_with_fetch_word_runs : (after (step ((s6 .usb).withFetchWord 40 0x0100000000))).map (·.iface) = some .disc ∧
    (after (step ((s6 .usb).withFetchWord 18 254))).map (fun t => (t.ret, t.call)) = some (.detect .bt false, none) := by decide

/-! ### Vectors of the decoder -/

/-- T27 to T39. -/
theorem test_buttons_of_view_byte_4 :
    [0x00, 0x01, 0x02, 0x03, 0x04, 0x05, 0x06, 0x07, 0x08, 0x1F, 0x28, 0x85, 0xF7].map (fun b => buttons b 0 0) =
    [0x10, 0x30, 0x20, 0x60, 0x40, 0xC0, 0x80, 0x90, 0x00, 0x08, 0x04, 0xC1, 0x9F] := by decide
/-- T41 and T42. -/
theorem test_buttons_of_view_bytes_5_and_6 :
    [0x01, 0x41, 0x80, 0xFF].map (fun b => buttons 8 b 0) = [0x00100, 0x04100, 0x08000, 0x0FF00] ∧
    [0x01, 0x02, 0xFC, 0xFE].map (fun b => buttons 8 0 b) = [0x10000, 0x20000, 0x00000, 0x20000] := by decide
/-- T61: the only entry comes from slot 1. -/
theorem test_touch_from_slot_1 :
    touchSeq (listView (List.replicate 34 0 ++ [0x85, 0x01, 0x02, 0x03, 0x06, 0x10, 0x32, 0x54])) = [⟨6, 528, 1347⟩] := by decide

/-! ### Witnesses: states and operands that meet the hypotheses of the statements -/

/-- For EncodeThenDecodeGivesTheOperationBack. -/
theorem witness_well_formed : (Instr.detect 65535 .bt).wf = true ∧ (Instr.crc32 [1]).wf = true := by decide
/-- For DecodedWordsAreTheEncodedOnes. -/
theorem witness_decoded_words : decode (.cmd 0x02FF) = .ok (.nop 0x2FF) ∧ decode (.call .batt [0x1F]) = .ok (.batt 15 true) := by decide
/-- For StepRunsTheDecodedOperation. -/
theorem witness_presented : t40Presented.call = none ∧ t40Presented.input = .present 0x020001003F 1000 :: [] ∧
    decode (.cmd 0x020001003F) = .ok (.rxr 63 1) := by decide
/-- For StepRunsTheDecodedOperation, the second clause. -/
theorem witness_called : ({ onUsb with call := some (.batt, [0x1F]) } : State).call = some (.batt, [0x1F]) ∧
    decode (.call .batt [0x1F]) = .ok (.batt 15 true) := by decide
/-- For SubOperationsAreReachedOnlyThroughTheNine. -/
theorem witness_host_step : decode (.cmd 0x020001003F) = .ok (.rxr 63 1) ∧ t40Presented.call = none ∧
    ∃ t, step t40Presented = .next t := ⟨by decide, rfl, _, rfl⟩
/-- For IllegalCommandHasNoEffect. -/
theorem witness_illegal_presented :
    onUsb.call = none ∧ ({ onUsb with input := [.present 0x0300000000 7] } : State).input = .present 0x0300000000 7 :: [] ∧
    decodeCmd 0x0300000000 = .error (.unknownOp 3) := by decide
/-- For RxPortWriteStoresOneByte, at both ends of the port's addresses. -/
theorem witness_rx_write :
    onUsb.call = none ∧ ({ onUsb with input := [.rxWrite 127 9] } : State).input = .rxWrite 127 9 :: [] ∧
    ({ onUsb with input := [.rxWrite 0 9] } : State).input = .rxWrite 0 9 :: [] := by decide
/-- For PortReadsHaveNoSideEffect: each of the three clauses, the second and third where they meet. -/
theorem witness_port_reads :
    onUsb.call = none ∧ ({ onUsb with input := [.regRead 63] } : State).input = .regRead 63 :: [] ∧
    (({ onUsb with input := [.txRead 78] } : State).input = .txRead 78 :: [] ∧ (78 : BitVec 7).toNat ≤ 78) ∧
    (({ onUsb with input := [.txRead 79] } : State).input = .txRead 79 :: [] ∧ 79 ≤ (79 : BitVec 7).toNat) := by decide
/-- For DeliveredReportReachesRxr. -/
theorem witness_delivered : onUsb.call = none ∧ ({ onUsb with input := deliverReport [1, 2] 2 1 7 ++ [.reset] } : State).input =
    deliverReport [1, 2] 2 1 7 ++ [.reset] := ⟨rfl, rfl⟩
/-- For OnlyTwoStepsStop, the fault. -/
theorem witness_fault : step { onUsb with input := [.txRead 79] } = .fault (.txAddress 79) := rfl
/-- For OnlyTwoStepsStop, the refusal. -/
theorem witness_refusal : step { onUsb with call := some (.detect, [3, 0, 0]) } = .refused (.badOperand .ifaceThree) := rfl
/-- For StepsAnswerOnlyTheEightWords: a response stands, and a step is taken. -/
theorem witness_response_ok : ResponseOk { onUsb with rsp := some ⟨.ok, some .usbRes⟩ } ∧
    step { onUsb with rsp := some ⟨.ok, some .usbRes⟩ } = .next { onUsb with rsp := some ⟨.ok, some .usbRes⟩ } := by
  refine ⟨?_, rfl⟩
  intro r h
  cases h
  decide
/-- For ResetInputActsAsRst. -/
theorem witness_reset_input : onUsb.call = none ∧ ({ onUsb with input := [.reset, .regRead 0] } : State).input = .reset :: [.regRead 0] := by decide
/-- For DetectAnswersByLength: each clause, at 62, 63 and 64. -/
theorem witness_detect : Iface.usb ≠ .disc ∧ Iface.bt ≠ .disc ∧ (62 : Nat) ≠ 63 ∧ (64 : Nat) ≠ 63 ∧ State.reset.iface = .disc := by decide
/-- For FirstReportOf63ResolvesToUsb. -/
theorem witness_first_63 : beforeT40.iface = .disc ∧ (63 : BitVec 16).toNat = 63 := by decide
/-- For OtherFirstReportResolvesToBluetooth, at 0, 62, 64 and the longest length. -/
theorem witness_first_other : beforeT40.iface = .disc ∧
    (0#16).toNat ≠ 63 ∧ (62#16).toNat ≠ 63 ∧ (64#16).toNat ≠ 63 ∧ (65535#16).toNat ≠ 63 := by decide
/-- For ResolvedReportIsDecoded: both clauses at their least length. -/
theorem witness_resolved : (onUsb.iface = .usb ∧ 42 ≤ (42 : BitVec 16).toNat) ∧ (onBt.iface = .bt ∧ 44 ≤ (44 : BitVec 16).toNat) := by
  decide
/-- For ShortReportIsRefusedWhole: both clauses at their greatest length. -/
theorem witness_short : (onUsb.iface = .usb ∧ (41 : BitVec 16).toNat < 42) ∧ (onBt.iface = .bt ∧ (43 : BitVec 16).toNat < 44) := by decide
/-- For ReportReadsOnlyItsOwnBytes: two states that differ in the Bluetooth prefix and at address 44. -/
theorem witness_own_bytes :
    ({ onBt with rx := [(0, 1), (44, 2)] } : State).iface = onBt.iface ∧ ({ onBt with rx := [(0, 1), (44, 2)] } : State).ctl = onBt.ctl ∧
    ({ onBt with rx := [(0, 1), (44, 2)] } : State).tsIn = onBt.tsIn ∧
    ∀ a, a < min (63 : BitVec 16).toNat 44 → (onBt.iface = .bt → 2 ≤ a) →
      ({ onBt with rx := [(0, 1), (44, 2)] } : State).rxByte a = onBt.rxByte a := by
  refine ⟨rfl, rfl, rfl, ?_⟩
  intro a ha h2
  have h2 := h2 rfl
  have h3 : a < 44 := lt_of_lt_of_le ha (Nat.min_le_right _ _)
  have h : Memory.get [(0, 1), (44, 2)] a = none := by
    rw [Memory.get, if_neg (by omega), Memory.get, if_neg (by clear ha; omega)]
    rfl
  show (Memory.get [(0, 1), (44, 2)] a).getD _ = _
  rw [h]
  rfl
/-- For DecodeWritesTheDecodersRegisters and DecodeOfAShortViewIsRefused: the lengths where they meet. -/
theorem witness_view_lengths : onBt.iface ≠ .disc ∧ 42 ≤ t40.length ∧ (t40.take 41).length < 42 := by decide
/-- For DecodeBeforeResolutionIsAnError, and for every statement about an unresolved block. -/
theorem witness_unresolved : State.reset.iface = .disc := by decide
/-- For DecodingTwiceIsDecodingOnce. -/
theorem witness_decoded_once : exec (.decode t40) onUsb =
    .next { onUsb with ctl := decodeView hw (listView t40) 0, rsp := some ⟨.ok, none⟩ } := rfl
/-- For IgnoredBytesDoNotMatter: two views that differ in an ignored byte and in the ignored bits of bytes 6 and 29. -/
theorem witness_ignored : ∃ v v' : View, v' ≠ v ∧
    (∀ o, o < 42 → o ≠ 6 → o ≠ 29 → ¬(9 ≤ o ∧ o ≤ 12) → ¬(25 ≤ o ∧ o ≤ 28) → ¬(30 ≤ o ∧ o ≤ 33) → v' o = v o) ∧
    (v' 6).extractLsb' 0 2 = (v 6).extractLsb' 0 2 ∧ (v' 29).extractLsb' 0 5 = (v 29).extractLsb' 0 5 := by
  refine ⟨fun _ => 0, fun o => if o = 6 then 0xFC else if o = 29 then 0xE0 else if o = 9 then 1 else 0, ?_, ?_, by decide, by decide⟩
  · intro h
    exact absurd (congrFun h 9) (by decide)
  · intro o _ h6 h29 h9 _ _
    have : o ≠ 9 := by omega
    simp [h6, h29, this]
/-- For SticksHoldTheDeviation and TriggersAreClampedBelow: two raw bytes in order, and both ends of the trigger dead zone. -/
theorem witness_dead_zones : (0x7F : Byte).toNat ≤ (0x80 : Byte).toNat ∧ hw.trigDz ≤ 255 ∧
    ({ hw with trigDz := 255 } : Config).trigDz ≤ 255 := by decide
/-- For ButtonsAreTheReportsBits: the last bit of each clause. -/
theorem witness_button_bits : 3 < 4 ∧ 7 < 8 ∧ 1 < 2 := by decide
/-- For DpadCodesSetTheirDirections and BatteryFollowsTheNibble: a code and a nibble of a view. -/
theorem witness_codes : (7 : Nat) = (((listView [0, 0, 0, 0, 0xF7]) 4).extractLsb' 0 4).toNat ∧
    (11 : Nat) = ((listView t40) 29).toNat % 16 := by decide
/-- For TouchSequenceIsReplaced: entries with the fields of any view's bytes. -/
theorem witness_touch_fields : ∀ v : View, ∃ e : Nat → Touch, ∀ b, (e b).id.toNat = (v b).toNat % 128 ∧
    (e b).x.toNat = (v (b + 2)).toNat % 16 * 256 + (v (b + 1)).toNat ∧
    (e b).y.toNat = (v (b + 3)).toNat * 16 + (v (b + 2)).toNat / 16 := by
  intro v
  refine ⟨fun b => ⟨BitVec.ofNat 7 (v b).toNat, BitVec.ofNat 12 ((v (b + 2)).toNat % 16 * 256 + (v (b + 1)).toNat),
    BitVec.ofNat 12 ((v (b + 3)).toNat * 16 + (v (b + 2)).toNat / 16)⟩, fun b => ⟨?_, ?_, ?_⟩⟩
  · rfl
  · have := (v (b + 1)).isLt
    simp only [BitVec.toNat_ofNat]
    omega
  · have := (v (b + 2)).isLt
    have := (v (b + 3)).isLt
    simp only [BitVec.toNat_ofNat]
    omega
/-- For TouchSequenceIsReplaced: its four clauses. -/
theorem witness_touch_flags : ∀ p q : Bool, ∃ v : View, (v 34).getLsbD 7 = p ∧ (v 38).getLsbD 7 = q := by
  intro p q
  refine ⟨fun o => if o = 34 then (if p then 0x80 else 0) else (if q then 0x80 else 0), ?_⟩
  cases p <;> cases q <;> decide
/-- For SlotAnswersThePackedFields: both clauses. -/
theorem witness_slot_flags : (0x85 : Byte).getLsbD 7 = true ∧ (0x7F : Byte).getLsbD 7 = false := by decide
/-- For ClampIsSigned: the three ranges where they meet. -/
theorem witness_clamp_ranges : (0xFFFFFFFF : BitVec 32).toInt < 0 ∧ 255 < (256 : BitVec 32).toInt ∧
    (0 ≤ (0 : BitVec 32).toInt ∧ (0 : BitVec 32).toInt ≤ 255) ∧ (0 ≤ (255 : BitVec 32).toInt ∧ (255 : BitVec 32).toInt ≤ 255) := by decide
/-- For RumbleSettersWriteAndSend, LightbarSettersWriteAndSend and ResendWritesNoRegister: both transports. -/
theorem witness_resolved_block : (s6 .usb).iface ≠ .disc ∧ (s6 .bt).iface ≠ .disc := by decide
/-- For SettersBeforeResolutionKeepTheValue and ResendBeforeResolutionIsAnError. -/
theorem witness_unresolved_setter : (s6 .disc).iface = .disc ∧ ∃ u : State,
    u = { s6 .disc with rsp := some ⟨.ePrecond, none⟩, ret := .none } := ⟨rfl, _, rfl⟩
/-- For TrailerIsTheChecksumOfTheRest: both orders. -/
theorem witness_trailer_orders : hw.btCrcLsbFirst = true ∧ ({ hw with btCrcLsbFirst := false } : Config).btCrcLsbFirst = false ∧
    ∃ f, f = frameBt hw ⟨10, 200⟩ ⟨0, 255, 128⟩ := ⟨rfl, rfl, _, rfl⟩
/-- For BluetoothBytesStandAtTheirOffsets and FramesTellTheRegistersApart: this hardware's parameters and others; and a byte that is no
parameter's. -/
theorem witness_valid_parameters : hw.Valid ∧ ({ hw with btBOff := 74, stickDz := 128, trigDz := 255, rxCap := 44 } : Config).Valid ∧
    (2 ≤ 3 ∧ 3 < 75 ∧ 3 ∉ hw.btOffsets) := by decide
/-- A state whose controller registers are at their reset values is good. -/
theorem inv_of_zero (s : State) (h : s.ctl = Controller.zero) : Inv s := by
  refine ⟨?_, ?_, ?_, fun _ => h⟩ <;> rw [h]
  · unfold BatteryOk; decide
  · unfold TouchOk; decide
  · unfold DpadOk; decide
/-- For StepsKeepTheRegisterInvariant: a good state, and a step that changes it. -/
theorem witness_good_step : Inv State.reset ∧ ∃ t, step { State.reset with input := [.present 0x020000003F 5] } = .next t ∧
    Inv { State.reset with input := [.present 0x020000003F 5] } ∧ t.iface = .usb :=
  ⟨inv_of_zero _ rfl, _, rfl, inv_of_zero _ rfl, rfl⟩
/-- For StepsKeepTheBuffersCanonical. -/
theorem witness_canonical_step : BuffersOk { onUsb with rx := [(3, 1)], input := [.rxWrite 0 9] } ∧
    step { onUsb with rx := [(3, 1)], input := [.rxWrite 0 9] } = .next { onUsb with rx := [(0, 9), (3, 1)], input := [] } :=
  ⟨by unfold BuffersOk; decide, rfl⟩
/-- For IfaceChangesOnlyFromDisconnected: a step that resolves and a step that disconnects. -/
theorem witness_iface_changes :
    (∃ t, step { State.reset with input := [.present 0x0200000000 5] } = .next t ∧ State.reset.iface ≠ t.iface) ∧
    (∃ t, step { onUsb with input := [.reset] } = .next t ∧ onUsb.iface ≠ t.iface) :=
  ⟨⟨_, rfl, by decide⟩, ⟨_, rfl, by decide⟩⟩
/-- For EachStateGroupHasOneWriter: an operation of each of the first three clauses, and one that is no writer, that answer a next state. -/
theorem witness_writers :
    (isDecodePath (.decode t40) = true ∧ ∃ t, exec (.decode t40) onUsb = .next t) ∧
    (isSetter (.slb 64) = true ∧ ∃ t, exec (.slb 64) onUsb = .next t) ∧
    (∃ t, exec (.enc 0) onUsb = .next t) ∧ (∀ arg, Instr.send ≠ .rst arg) ∧ (∀ v, Instr.send ≠ .srl v) ∧ ∃ t, exec .send onUsb = .next t :=
  ⟨⟨rfl, _, rfl⟩, ⟨rfl, _, rfl⟩, ⟨_, rfl⟩, by simp, by simp, _, rfl⟩
/-- For ErrorsLeaveNoOtherTrace: an error of a setter, which is not the setter of another register. -/
theorem witness_error : ∃ t r, exec (.srl 1) (s6 .disc) = .next t ∧ t.rsp = some r ∧ r.status ≠ .ok ∧ ∀ v, Instr.srl 1 ≠ .srh v :=
  ⟨_, _, rfl, rfl, by decide, by simp⟩
/-- A run of one first report. -/
def firstReport (w : CmdWord) : State := { State.reset with input := [.present w 0] }
/-- For UsbResIsEmittedOncePerUsbConnection: a run that ends as USB. -/
theorem witness_usb_run : (firstReport 0x020000003F).iface = .disc ∧
    (∀ a ∈ (firstReport 0x020000003F).input.take 1, startsConnection a = false) ∧
    ∃ t, core.run 1 (firstReport 0x020000003F) = .next t ∧ t.iface = .usb := ⟨rfl, by decide, _, rfl, rfl⟩
/-- For FeatureRequestsCountTheBluetoothReports: a run that ends as Bluetooth. -/
theorem witness_bt_run : (firstReport 0x020000004E).iface = .disc ∧
    (∀ a ∈ (firstReport 0x020000004E).input.take 1, startsConnection a = false) ∧
    ∃ t, core.run 1 (firstReport 0x020000004E) = .next t ∧ t.iface = .bt := ⟨rfl, by decide, _, rfl, rfl⟩

end Sys2Proof.Tests
end

/-! The samples and the battery of the decoded controller state (spec 41 R128 to R131): what a little-endian pair of view bytes is
worth, which pair each sample is, and the battery percentage without the wrap of its byte. -/

namespace Sys2Proof.Machine

/-- A pair of view bytes, low byte first (20 R51, 30 R81 a). -/
theorem u16le_toNat (v : View) (o : Nat) : (u16le v o).toNat = (v o).toNat + 256 * (v (o + 1)).toNat := by
  have hlow : (v o).toNat < 2 ^ 8 := (v o).isLt
  calc (u16le v o).toNat = (v (o + 1)).toNat <<< 8 ||| (v o).toNat := BitVec.toNat_append _ _
    _ = (v (o + 1)).toNat <<< 8 + (v o).toNat := (Nat.shiftLeft_add_eq_or_of_lt hlow _).symm
    _ = (v o).toNat + 256 * (v (o + 1)).toNat := by rw [Nat.shiftLeft_eq]; omega

/-- The same pair read as two's complement (41 R129). -/
theorem u16le_toInt (v : View) (o : Nat) : (u16le v o).toInt =
    (let n : Int := (v o).toNat + 256 * (v (o + 1)).toNat
     if n < 32768 then n else n - 65536) := by
  rw [BitVec.toInt_eq_toNat_cond, u16le_toNat]
  dsimp only
  split
  · rw [if_pos (by omega)]; omega
  · rw [if_neg (by omega)]; omega

theorem decodeView_gyro (c : Config) (v : View) (ts : Stamp) (k : Fin 3) :
    (decodeView c v ts).gyro[k] = u16le v (13 + 2 * k) := by
  fin_cases k <;> rfl

theorem decodeView_accel (c : Config) (v : View) (ts : Stamp) (k : Fin 3) :
    (decodeView c v ts).accel[k] = u16le v (19 + 2 * k) := by
  fin_cases k <;> rfl

@[simp] theorem batteryNibble_toNat (b29 : Byte) : (batteryNibble b29).toNat = b29.toNat % 16 := rfl

/-- The percentage fits its byte: it is at most 136, at nibble 15 while charging (41 R131, 10 R29). -/
theorem batt_toNat (n : BitVec 4) (charging : Bool) :
    (batt n charging).toNat = if charging then n.toNat * 100 / 11 else min 100 (n.toNat * 100 / 8) := by
  have hn : n.toNat < 16 := n.isLt
  refine Nat.mod_eq_of_lt ?_
  split
  · omega
  · omega

/-- Settles O33: each sample is its pair of view bytes, read unsigned for the gyroscope and signed for the accelerometer. -/
theorem motionSamplesAreLittleEndian : Obligations.MotionSamplesAreLittleEndian := by
  intro c v ts k
  have hgyro : 14 + 2 * (k : Nat) = 13 + 2 * k + 1 := by omega
  have haccel : 20 + 2 * (k : Nat) = 19 + 2 * k + 1 := by omega
  rw [decodeView_gyro, decodeView_accel, hgyro, haccel]
  exact ⟨u16le_toNat v _, u16le_toInt v _⟩

/-- Settles O34: `DECODE` writes the flag and `BATT` of the nibble and the flag, and `BATT` fits its byte. -/
theorem batteryFollowsTheNibble : Obligations.BatteryFollowsTheNibble := by
  rintro c v ts n rfl
  have hbatt := batt_toNat (batteryNibble (v 29)) (chargingFlag (v 29))
  rw [batteryNibble_toNat] at hbatt
  exact ⟨rfl, hbatt⟩

end Sys2Proof.Machine

/-! The words of the operations (spec 30 R71 to R74, R82 and the opcode table's rows): the round trip in both directions, and which
command words are illegal. -/

namespace Sys2Proof.Machine

open Sys2Proof.Safety

/-- A command word is its opcode and its operand (30 R71). -/
theorem cmdWord_cmdOp_cmdArg (w : CmdWord) : cmdWord (cmdOp w) (cmdArg w) = w :=
  (Laws.RoundTrip.extract_adjoin w 0 32 8 rfl).trans BitVec.extractLsb'_eq_self

/-- The operand of an `RXR` word with a zero top byte, put together again from tag and length (30 R73). -/
theorem rxr_fields_append (arg : BitVec 32) (htop : arg.extractLsb' 24 8 = 0) :
    (0 : Byte) ++ arg.extractLsb' 16 8 ++ arg.extractLsb' 0 16 = arg := by
  rw [← htop, Laws.RoundTrip.extract_adjoin arg 16 8 8 rfl, Laws.RoundTrip.extract_adjoin arg 0 16 16 rfl]
  exact BitVec.extractLsb'_eq_self

/-- An opcode read as a number is that opcode. -/
theorem cmdOp_eq_of_toNat {w : CmdWord} {n : Nat} (h : (cmdOp w).toNat = n) : cmdOp w = BitVec.ofNat 8 n := by
  rw [← h, BitVec.ofNat_toNat, BitVec.setWidth_eq]

/-- A command word with that opcode is the opcode followed by its operand. -/
theorem cmdWord_of_toNat {w : CmdWord} {n : Nat} (h : (cmdOp w).toNat = n) :
    cmdWord (BitVec.ofNat 8 n) (cmdArg w) = w := by
  rw [← cmdOp_eq_of_toNat h, cmdWord_cmdOp_cmdArg]

/-- A command word that decodes is the word of a host operation (30 R72, 00 R6). -/
theorem encode_of_decodeCmd {w : CmdWord} {i : Instr} (h : decodeCmd w = .ok i) :
    encode i = .cmd w ∧ i.wf = true ∧ isHostOp i = true := by
  unfold decodeCmd at h
  dsimp only at h
  split at h
  case h_3 hop =>
    split at h
    case isTrue htop =>
      cases h
      refine ⟨congrArg Words.cmd ?_, rfl, rfl⟩
      rw [rxrWord, rxr_fields_append _ htop]
      exact cmdWord_of_toNat hop
    case isFalse => cases h
  case h_10 => cases h
  all_goals
    rename_i hop
    cases h
    exact ⟨congrArg Words.cmd (cmdWord_of_toNat hop), rfl, rfl⟩

/-- The transport a 2-bit value names has that value (10 R21). -/
theorem Iface.bits_of_ofBits {b : BitVec 2} {cur : Iface} (h : Iface.ofBits b = some cur) : cur.bits = b := by
  revert b cur; intro b; fin_cases b <;> rintro (_ | _ | _) h <;> cases h <;> rfl

/-- The row of `DETECT` from its fields gives the three bytes it was read from (log 2). -/
theorem detectBytes_of_fields {n : BitVec 24} {cur : Iface} (htop : n.extractLsb' 18 6 = 0)
    (hcur : Iface.ofBits (n.extractLsb' 0 2) = some cur) :
    detectBytes (n.extractLsb' 2 16).toNat cur = [n.extractLsb' 0 8, n.extractLsb' 8 8, n.extractLsb' 16 8] := by
  have hrow : (0 : BitVec 6) ++ BitVec.ofNat 16 (n.extractLsb' 2 16).toNat ++ cur.bits = n := by
    rw [Iface.bits_of_ofBits hcur, ← htop, BitVec.ofNat_toNat, BitVec.setWidth_eq,
      Laws.RoundTrip.extract_adjoin n 2 16 6 rfl, Laws.RoundTrip.extract_adjoin n 0 2 22 rfl]
    exact BitVec.extractLsb'_eq_self
  simp only [detectBytes, hrow]

/-- The row of `BATT` from its fields gives the byte it was read from (log 2). -/
theorem battByte_of_fields : ∀ b : Byte, b.extractLsb' 5 3 = 0 → battByte (b.extractLsb' 0 4) (b.getLsbD 4) = b := by
  unfold battByte; decide

/-- A field of a field. -/
theorem extract_extract {n : Nat} (v : BitVec n) {a l b m : Nat} (h : b + m ≤ l) :
    (v.extractLsb' a l).extractLsb' b m = v.extractLsb' (a + b) m := by
  apply BitVec.eq_of_getLsbD_eq
  intro i hi
  have hil : b + i < l := by omega
  simp [hi, hil, Nat.add_assoc]

/-- The four bytes of a value put together from four bytes (00 R8). -/
theorem bytesOf32_append (b0 b1 b2 b3 : Byte) : bytesOf32 (b3 ++ b2 ++ b1 ++ b0) = [b0, b1, b2, b3] := by
  have h0 : (b3 ++ b2 ++ b1 ++ b0 : BitVec 32).extractLsb' 0 8 = b0 := Laws.RoundTrip.extract_low (b3 ++ b2 ++ b1) b0
  have h1 : (b3 ++ b2 ++ b1 ++ b0 : BitVec 32).extractLsb' 8 8 = b1 := Laws.RoundTrip.extract_mid (b3 ++ b2) b1 b0
  have high : (b3 ++ b2 ++ b1 ++ b0 : BitVec 32).extractLsb' 16 16 = b3 ++ b2 :=
    Laws.RoundTrip.extract_top (b3 ++ b2) b1 b0 rfl
  have h2 : (b3 ++ b2 ++ b1 ++ b0 : BitVec 32).extractLsb' 16 8 = (b3 ++ b2).extractLsb' 0 8 :=
    (extract_extract _ (by decide)).symm.trans (congrArg (BitVec.extractLsb' 0 8) high)
  have h3 : (b3 ++ b2 ++ b1 ++ b0 : BitVec 32).extractLsb' 24 8 = (b3 ++ b2).extractLsb' 8 8 :=
    (extract_extract _ (by decide)).symm.trans (congrArg (BitVec.extractLsb' 8 8) high)
  rw [bytesOf32, h0, h1, h2, h3, Laws.RoundTrip.extract_low, Laws.RoundTrip.extract_high]

/-- The three bytes of a value put together from three bytes. -/
theorem extract_bytes_append24 (b0 b1 b2 : Byte) :
    [(b2 ++ b1 ++ b0 : BitVec 24).extractLsb' 0 8, (b2 ++ b1 ++ b0 : BitVec 24).extractLsb' 8 8,
      (b2 ++ b1 ++ b0 : BitVec 24).extractLsb' 16 8] = [b0, b1, b2] := by
  have h0 : (b2 ++ b1 ++ b0 : BitVec 24).extractLsb' 0 8 = b0 := Laws.RoundTrip.extract_low (b2 ++ b1) b0
  have h1 : (b2 ++ b1 ++ b0 : BitVec 24).extractLsb' 8 8 = b1 := Laws.RoundTrip.extract_mid b2 b1 b0
  have h2 : (b2 ++ b1 ++ b0 : BitVec 24).extractLsb' 16 8 = b2 := Laws.RoundTrip.extract_top b2 b1 b0 rfl
  rw [h0, h1, h2]

/-- What the bytes of a `DETECT` call can decode to (log 2). -/
theorem decodeCall_detect_inv {b0 b1 b2 : Byte} {i : Instr} (h : decodeCall .detect [b0, b1, b2] = .ok i) :
    ∃ (n : BitVec 24) (cur : Iface), n = b2 ++ b1 ++ b0 ∧ n.extractLsb' 18 6 = 0 ∧
      Iface.ofBits (n.extractLsb' 0 2) = some cur ∧ i = .detect (n.extractLsb' 2 16).toNat cur := by
  refine ⟨b2 ++ b1 ++ b0, ?_⟩
  unfold decodeCall at h
  dsimp only at h
  split at h
  case isTrue htop =>
    split at h
    case h_1 cur hcur =>
      cases h
      exact ⟨cur, rfl, htop, hcur, rfl⟩
    case h_2 => cases h
  case isFalse => cases h

/-- What the byte of a `BATT` call can decode to (log 2). -/
theorem decodeCall_batt_inv {b : Byte} {i : Instr} (h : decodeCall .batt [b] = .ok i) :
    b.extractLsb' 5 3 = 0 ∧ i = .batt (b.extractLsb' 0 4) (b.getLsbD 4) := by
  unfold decodeCall at h
  dsimp only at h
  split at h
  case isTrue htop =>
    cases h
    exact ⟨htop, rfl⟩
  case isFalse => cases h

/-- Operand bytes that decode are the bytes of the sub-operation they decode to, which is no host operation (log 2, 00 R6). -/
theorem encode_of_decodeCall {op : SubOp} {l : List Byte} {i : Instr} (h : decodeCall op l = .ok i) :
    encode i = .call op l ∧ i.wf = true ∧ isHostOp i = false := by
  cases op with
  | decode => cases h; exact ⟨rfl, rfl, rfl⟩
  | crc32 => cases h; exact ⟨rfl, rfl, rfl⟩
  | detect =>
    match l with
    | [b0, b1, b2] =>
      obtain ⟨n, cur, hn, htop, hcur, rfl⟩ := decodeCall_detect_inv h
      refine ⟨congrArg (Words.call .detect) ?_, decide_eq_true (n.extractLsb' 2 16).isLt, rfl⟩
      rw [detectBytes_of_fields htop hcur, hn, extract_bytes_append24]
    | [] | [_] | [_, _] | _ :: _ :: _ :: _ :: _ => cases h
  | normStick =>
    match l with
    | [b] => cases h; exact ⟨rfl, rfl, rfl⟩
    | [] | _ :: _ :: _ => cases h
  | normTrig =>
    match l with
    | [b] => cases h; exact ⟨rfl, rfl, rfl⟩
    | [] | _ :: _ :: _ => cases h
  | batt =>
    match l with
    | [b] =>
      obtain ⟨htop, rfl⟩ := decodeCall_batt_inv h
      exact ⟨congrArg (fun x => Words.call .batt [x]) (battByte_of_fields b htop), rfl, rfl⟩
    | [] | _ :: _ :: _ => cases h
  | slot =>
    match l with
    | [b0, b1, b2, b3] => cases h; exact ⟨rfl, rfl, rfl⟩
    | [] | [_] | [_, _] | [_, _, _] | _ :: _ :: _ :: _ :: _ :: _ => cases h
  | clamp8 =>
    match l with
    | [b0, b1, b2, b3] =>
      rw [Laws.RoundTrip.decodeCall_clamp8] at h
      cases h
      exact ⟨congrArg (Words.call .clamp8) (bytesOf32_append b0 b1 b2 b3), rfl, rfl⟩
    | [] | [_] | [_, _] | [_, _, _] | _ :: _ :: _ :: _ :: _ :: _ => cases h
  | send =>
    match l with
    | [] => cases h; exact ⟨rfl, rfl, rfl⟩
    | _ :: _ => cases h
  | encodeUsb =>
    match l with
    | [] => cases h; exact ⟨rfl, rfl, rfl⟩
    | _ :: _ => cases h
  | encodeBt =>
    match l with
    | [] => cases h; exact ⟨rfl, rfl, rfl⟩
    | _ :: _ => cases h

/-- Settles O1: the round trip of each of the twenty operations. -/
theorem encodeThenDecodeGivesTheOperationBack : Obligations.EncodeThenDecodeGivesTheOperationBack := by
  intro i
  cases i with
  | nop arg => exact Laws.RoundTrip.nop arg
  | rst arg => exact Laws.RoundTrip.rst arg
  | rxr len rid => exact Laws.RoundTrip.rxr len rid
  | srl val => exact Laws.RoundTrip.srl val
  | srh val => exact Laws.RoundTrip.srh val
  | slr val => exact Laws.RoundTrip.slr val
  | slg val => exact Laws.RoundTrip.slg val
  | slb val => exact Laws.RoundTrip.slb val
  | enc arg => exact Laws.RoundTrip.enc arg
  | decode view => exact Laws.RoundTrip.decode view
  | detect rawLength cur => exact Laws.RoundTrip.detect rawLength cur
  | normStick raw => exact Laws.RoundTrip.normStick raw
  | normTrig raw => exact Laws.RoundTrip.normTrig raw
  | batt n c => exact Laws.RoundTrip.batt n c
  | slot b0 b1 b2 b3 => exact Laws.RoundTrip.slot b0 b1 b2 b3
  | clamp8 v => exact Laws.RoundTrip.clamp8 v
  | send => exact Laws.RoundTrip.send
  | encodeUsb => exact Laws.RoundTrip.encodeUsb
  | encodeBt => exact Laws.RoundTrip.encodeBt
  | crc32 m => exact Laws.RoundTrip.crc32 m

/-- Settles O2: each constructor of `Words` by its own inversion of the decoder. -/
theorem decodedWordsAreTheEncodedOnes : Obligations.DecodedWordsAreTheEncodedOnes := by
  intro w i h
  cases w with
  | cmd w =>
    obtain ⟨henc, hwf, -⟩ := encode_of_decodeCmd h
    exact ⟨henc, hwf⟩
  | call op l =>
    obtain ⟨henc, hwf, -⟩ := encode_of_decodeCall h
    exact ⟨henc, hwf⟩

/-- The opcodes of the nine host operations (30 R72). -/
def hostOpcodes : List Byte := [0x00#8, 0x01#8, 0x02#8, 0x10#8, 0x11#8, 0x12#8, 0x13#8, 0x14#8, 0x20#8]

/-- The top byte of the operand is bits 31 to 24 of the command word (30 R71). -/
theorem cmdArg_top (w : CmdWord) : (cmdArg w).extractLsb' 24 8 = w.extractLsb' 24 8 := extract_extract w (by decide)

/-- Which command words decode (30 R72, R82 a). -/
theorem decodeCmd_ok_iff (w : CmdWord) : (∃ i, decodeCmd w = .ok i) ↔
    cmdOp w ∈ hostOpcodes ∧ (cmdOp w = 0x02#8 → w.extractLsb' 24 8 = 0#8) := by
  rw [← cmdArg_top]
  constructor
  · rintro ⟨i, h⟩
    unfold decodeCmd at h
    dsimp only at h
    split at h
    case h_3 hop =>
      split at h
      case isTrue htop => exact ⟨by simp [cmdOp_eq_of_toNat hop, hostOpcodes], fun _ => htop⟩
      case isFalse => cases h
    case h_10 => cases h
    all_goals
      rename_i hop
      simp [cmdOp_eq_of_toNat hop, hostOpcodes]
  · rintro ⟨hmem, htop⟩
    unfold decodeCmd
    simp only [hostOpcodes, List.mem_cons, List.not_mem_nil, or_false] at hmem
    rcases hmem with h | h | h | h | h | h | h | h | h
    case inr.inr.inl =>
      rw [h]
      exact ⟨_, if_pos (htop h)⟩
    all_goals
      rw [h]
      exact ⟨_, rfl⟩

/-- Words that do not decode are rejected. -/
theorem decodeCmd_error_iff (w : CmdWord) : (∃ why, decodeCmd w = .error why) ↔ ¬∃ i, decodeCmd w = .ok i := by
  cases decodeCmd w <;> simp

/-- Settles O3: a word is rejected unless its opcode is one of the nine and the top byte of an `RXR` is 0. -/
theorem illegalCommandWordsAreExactlyThese : Obligations.IllegalCommandWordsAreExactlyThese := by
  intro w
  rw [decodeCmd_error_iff, decodeCmd_ok_iff, not_and_or, Classical.not_imp]
  rfl

/-- Settles O4: the decoder evaluated on the twelve words. -/
theorem wordsOfTheSpecDecode : Obligations.WordsOfTheSpecDecode := by
  unfold Obligations.WordsOfTheSpecDecode
  decide

end Sys2Proof.Machine

/-! The decoder's registers from the bytes of the view (spec 41): sticks, triggers, buttons, D-pad, battery and touch, and what each
sub-operation of the decoder answers on its own. -/

namespace Sys2Proof.Machine

open Sys2Proof.Safety

/-! ### Sticks and triggers -/

/-- The deviation of a raw byte from 128, or 0 strictly below the dead zone; the clamp never acts on a byte (41 R121). -/
theorem normStick_toInt (c : Config) (raw : Byte) : (normStick c raw).toInt =
    if ((raw.toNat : Int) - 128).natAbs < c.stickDz then 0 else (raw.toNat : Int) - 128 := by
  have hraw : raw.toNat < 256 := raw.isLt
  have hclamp : clampInt (-128) 128 ((raw.toNat : Int) - 128) = (raw.toNat : Int) - 128 := by
    rw [clampInt, if_neg (by omega), if_neg (by omega)]
  unfold normStick
  dsimp only
  rw [hclamp, BitVec.toInt_ofInt_eq_self (by decide)]
  · split <;> omega
  · split <;> omega

theorem normStick_mono (c : Config) {a b : Byte} (h : a.toNat ≤ b.toNat) :
    (normStick c a).toInt ≤ (normStick c b).toInt := by
  rw [normStick_toInt, normStick_toInt]
  split
  · split <;> omega
  · split <;> omega

/-- At dead zone 0 the representation is the raw byte with its top bit inverted (92 D5). -/
theorem normStick_hw : ∀ raw : Byte, normStick hw raw = raw ^^^ 0x80 := by decide +kernel

theorem decodeView_stick (c : Config) (v : View) (ts : Stamp) (i : Fin 4) :
    (decodeView c v ts).stick[i] = normStick c (v i) := by
  fin_cases i <;> rfl

/-- The raw byte, raised to the dead zone (41 R127). -/
theorem normTrig_toNat {c : Config} (hdz : c.trigDz ≤ 255) (raw : Byte) :
    (normTrig c raw).toNat = max c.trigDz raw.toNat := by
  have hraw : raw.toNat < 256 := raw.isLt
  rw [normTrig, BitVec.toNat_ofNat, min_eq_right (by omega), Nat.mod_eq_of_lt (by omega)]

theorem normTrig_hw (raw : Byte) : normTrig hw raw = raw :=
  BitVec.eq_of_toNat_eq ((normTrig_toNat (by decide) raw).trans (Nat.zero_max _))

theorem decodeView_trig (c : Config) (v : View) (ts : Stamp) (i : Fin 2) :
    (decodeView c v ts).trig[i] = normTrig c (v (7 + i)) := by
  fin_cases i <;> rfl

/-- Settles O29: each stick register is `NORM_STICK` of its byte. -/
theorem sticksHoldTheDeviation : Obligations.SticksHoldTheDeviation := by
  refine ⟨fun c v ts i => ?_, fun c a b => normStick_mono c, fun v ts i => ?_⟩
  · rw [decodeView_stick, normStick_toInt]
  · rw [decodeView_stick, normStick_hw]

/-- Settles O30: each trigger register is `NORM_TRIG` of its byte. -/
theorem triggersAreClampedBelow : Obligations.TriggersAreClampedBelow := by
  refine ⟨fun c v ts i hdz => ?_, fun c a b hdz h => ?_, fun v ts i => ?_⟩
  · rw [decodeView_trig, normTrig_toNat hdz]
  · rw [normTrig_toNat hdz, normTrig_toNat hdz]
    exact max_le_max_left _ h
  · rw [decodeView_trig, normTrig_hw]

/-- Settles O36: at the default dead zones. -/
theorem normalisationsAnswerAtDefaultDeadZone : Obligations.NormalisationsAnswerAtDefaultDeadZone := by
  intro raw s
  rw [← normStick_hw]
  refine ⟨rfl, ?_⟩
  have h : exec (.normTrig raw) s = .next (s.answer (.byte (normTrig hw raw))) := rfl
  rw [h, normTrig_hw]
  rfl

/-! ### Buttons and D-pad -/

theorem getLsbD_append_low {v w : Nat} (a : BitVec v) (b : BitVec w) {i : Nat} (h : i < w) :
    (a ++ b).getLsbD i = b.getLsbD i := by
  rw [BitVec.getLsbD_append, if_pos h]

theorem getLsbD_append_high {v w : Nat} (a : BitVec v) (b : BitVec w) (i : Nat) :
    (a ++ b).getLsbD (w + i) = a.getLsbD i := by
  rw [BitVec.getLsbD_append, if_neg (by omega), Nat.add_sub_cancel_left]

/-- The bits of four flags put side by side. -/
theorem getLsbD_four_flags : ∀ p q r t : Bool,
    let x : BitVec 4 := BitVec.ofBool p ++ BitVec.ofBool q ++ BitVec.ofBool r ++ BitVec.ofBool t
    x.getLsbD 0 = t ∧ x.getLsbD 1 = r ∧ x.getLsbD 2 = q ∧ x.getLsbD 3 = p := by
  decide

theorem faceFlags_getLsbD (b4 : Byte) {k : Nat} (hk : k < 4) : (faceFlags b4).getLsbD k = b4.getLsbD (7 - k) := by
  obtain ⟨h0, h1, h2, h3⟩ := getLsbD_four_flags (b4.getLsbD 4) (b4.getLsbD 5) (b4.getLsbD 6) (b4.getLsbD 7)
  interval_cases k
  exacts [h0, h1, h2, h3]

/-- The four direction flags of a D-pad code, from bit 0: up, right, down, left (41 R124, 10 R28). -/
theorem dpadFlags_getLsbD (d : BitVec 4) :
    (dpadFlags d).getLsbD 0 = dpadUp d ∧ (dpadFlags d).getLsbD 1 = dpadRight d ∧
      (dpadFlags d).getLsbD 2 = dpadDown d ∧ (dpadFlags d).getLsbD 3 = dpadLeft d :=
  getLsbD_four_flags (dpadLeft d) (dpadDown d) (dpadRight d) (dpadUp d)

section
variable (b4 b5 b6 : Byte)

theorem buttons_face {k : Nat} (hk : k < 4) : (buttons b4 b5 b6).getLsbD k = b4.getLsbD (7 - k) :=
  (getLsbD_append_low (b6.extractLsb' 0 2 ++ b5 ++ dpadFlags (dpadCode b4)) _ hk).trans (faceFlags_getLsbD b4 hk)

/-- The bits of `BTN` above the face buttons. -/
theorem buttons_above_face (k : Nat) : (buttons b4 b5 b6).getLsbD (4 + k) =
    (b6.extractLsb' 0 2 ++ b5 ++ dpadFlags (dpadCode b4)).getLsbD k :=
  getLsbD_append_high _ (faceFlags b4) k

theorem buttons_dpad {k : Nat} (hk : k < 4) :
    (buttons b4 b5 b6).getLsbD (4 + k) = (dpadFlags (dpadCode b4)).getLsbD k :=
  (buttons_above_face b4 b5 b6 k).trans (getLsbD_append_low _ _ hk)

/-- The bits of `BTN` above the directions. -/
theorem buttons_above_dpad (k : Nat) :
    (buttons b4 b5 b6).getLsbD (8 + k) = (b6.extractLsb' 0 2 ++ b5).getLsbD k := by
  rw [show 8 + k = 4 + (4 + k) by omega, buttons_above_face]
  exact getLsbD_append_high _ (dpadFlags (dpadCode b4)) k

theorem buttons_byte5 {j : Nat} (hj : j < 8) : (buttons b4 b5 b6).getLsbD (8 + j) = b5.getLsbD j :=
  (buttons_above_dpad b4 b5 b6 j).trans (getLsbD_append_low _ _ hj)

theorem buttons_byte6 {k : Nat} (hk : k < 2) : (buttons b4 b5 b6).getLsbD (16 + k) = b6.getLsbD k := by
  rw [show 16 + k = 8 + (8 + k) by omega, buttons_above_dpad, getLsbD_append_high]
  simp [hk]

end

/-- Settles O31: each flag by its place in the concatenation of `BTN`. -/
theorem buttonsAreTheReportsBits : Obligations.ButtonsAreTheReportsBits := fun _ _ _ =>
  ⟨fun _ hk => buttons_face _ _ _ hk, fun _ hj => buttons_byte5 _ _ _ hj, fun _ hk => buttons_byte6 _ _ _ hk⟩

/-- Settles O32: bits 4 to 7 of `BTN` are the flags of the code. -/
theorem dpadCodesSetTheirDirections : Obligations.DpadCodesSetTheirDirections := by
  rintro c v ts d rfl
  obtain ⟨hup, hright, hdown, hleft⟩ := dpadFlags_getLsbD (dpadCode (v 4))
  have hbit : ∀ k, k < 4 → (decodeView c v ts).btn.getLsbD (4 + k) = (dpadFlags (dpadCode (v 4))).getLsbD k :=
    fun k hk => buttons_dpad (v 4) (v 5) (v 6) hk
  rw [hbit 0 (by decide), hbit 1 (by decide), hbit 2 (by decide), hbit 3 (by decide), hup, hright, hdown, hleft]
  simp only [dpadUp, dpadRight, dpadDown, dpadLeft, decide_eq_true_eq]
  unfold dpadCode
  omega

/-! ### Battery -/

/-- Every percentage `BATT` answers is one of those listed, and at most 100 unless charging (10 R29). -/
theorem batt_mem_batteryValues : ∀ (n : BitVec 4) (charging : Bool),
    (batt n charging).toNat ∈ batteryValues ∧ (batt n charging).toNat ≤ 136 ∧
      (charging = false → (batt n charging).toNat ≤ 100) := by
  decide

/-- Settles O37: `BATT` fits its byte. -/
theorem battAnswersThePercentage : Obligations.BattAnswersThePercentage := by
  intro n c s
  obtain ⟨-, hmax, -⟩ := batt_mem_batteryValues n c
  exact ⟨batt n c, rfl, batt_toNat n c, hmax⟩

/-! ### Touch -/

theorem touchId_toNat (b0 : Byte) : (touchId b0).toNat = b0.toNat % 128 := by
  simp [touchId]

theorem touchX_toNat (b1 b2 : Byte) : (touchX b1 b2).toNat = b2.toNat % 16 * 256 + b1.toNat := by
  have hlow : b1.toNat < 2 ^ 8 := b1.isLt
  calc (touchX b1 b2).toNat = (b2.toNat % 16) <<< 8 ||| b1.toNat := BitVec.toNat_append _ _
    _ = (b2.toNat % 16) <<< 8 + b1.toNat := (Nat.shiftLeft_add_eq_or_of_lt hlow _).symm
    _ = b2.toNat % 16 * 256 + b1.toNat := by rw [Nat.shiftLeft_eq]

theorem touchY_toNat (b2 b3 : Byte) : (touchY b2 b3).toNat = b3.toNat * 16 + b2.toNat / 16 := by
  have hb2 : b2.toNat < 256 := b2.isLt
  have hlow : b2.toNat / 16 < 2 ^ 4 := by omega
  have hpart : (b2.extractLsb' 4 4).toNat = b2.toNat / 16 := by
    rw [BitVec.extractLsb'_toNat, Nat.shiftRight_eq_div_pow, Nat.mod_eq_of_lt hlow]
  calc (touchY b2 b3).toNat = b3.toNat <<< 4 ||| b2.toNat / 16 := hpart ▸ BitVec.toNat_append _ _
    _ = b3.toNat <<< 4 + b2.toNat / 16 := (Nat.shiftLeft_add_eq_or_of_lt hlow _).symm
    _ = b3.toNat * 16 + b2.toNat / 16 := by rw [Nat.shiftLeft_eq]

theorem slot_of_inactive {b0 : Byte} (h : b0.getLsbD 7 = true) (b1 b2 b3 : Byte) : slot b0 b1 b2 b3 = none :=
  if_pos h

theorem slot_of_active {b0 : Byte} (h : b0.getLsbD 7 = false) (b1 b2 b3 : Byte) :
    slot b0 b1 b2 b3 = some ⟨touchId b0, touchX b1 b2, touchY b2 b3⟩ :=
  if_neg (ne_true_of_eq_false h)

/-- An active slot's entry is the one with its packed fields (41 R132). -/
theorem slotAt_eq_some {v : View} {b : Nat} {e : Touch} (h : (v b).getLsbD 7 = false)
    (hid : e.id.toNat = (v b).toNat % 128) (hx : e.x.toNat = (v (b + 2)).toNat % 16 * 256 + (v (b + 1)).toNat)
    (hy : e.y.toNat = (v (b + 3)).toNat * 16 + (v (b + 2)).toNat / 16) : slotAt v b = some e := by
  obtain ⟨id, x, y⟩ := e
  have hid' : touchId (v b) = id := BitVec.eq_of_toNat_eq ((touchId_toNat _).trans hid.symm)
  have hx' : touchX (v (b + 1)) (v (b + 2)) = x := BitVec.eq_of_toNat_eq ((touchX_toNat _ _).trans hx.symm)
  have hy' : touchY (v (b + 2)) (v (b + 3)) = y := BitVec.eq_of_toNat_eq ((touchY_toNat _ _).trans hy.symm)
  rw [slotAt, slot_of_active h, hid', hx', hy']

theorem slotAt_eq_none {v : View} {b : Nat} (h : (v b).getLsbD 7 = true) : slotAt v b = none :=
  slot_of_inactive h _ _ _

/-- Settles O38: the two cases of `SLOT`. -/
theorem slotAnswersThePackedFields : Obligations.SlotAnswersThePackedFields := by
  intro b0 b1 b2 b3 s
  have hexec : exec (.slot b0 b1 b2 b3) s = .next (s.answer (.slot (slot b0 b1 b2 b3))) := rfl
  refine ⟨fun h => ?_, fun h => ⟨⟨touchId b0, touchX b1 b2, touchY b2 b3⟩, ?_, ?_⟩⟩
  · rw [hexec, slot_of_inactive h]
    rfl
  · rw [hexec, slot_of_active h]
    rfl
  · exact ⟨touchId_toNat b0, touchX_toNat b1 b2, touchY_toNat b2 b3⟩

/-- The touch registers from the two slots (41 R133, 92 D7). -/
theorem decodeView_touch {c : Config} {v : View} {ts : Stamp} {p q : Option Touch} (hp : slotAt v 34 = p)
    (hq : slotAt v 38 = q) :
    (decodeView c v ts).touchN = BitVec.ofNat 2 (p.toList ++ q.toList).length ∧
      (decodeView c v ts).touch =
        #v[(p.toList ++ q.toList).getD 0 Touch.zero, (p.toList ++ q.toList).getD 1 Touch.zero] := by
  subst hp hq
  exact ⟨rfl, rfl⟩

/-- Settles O35: the four combinations of active slots. -/
theorem touchSequenceIsReplaced : Obligations.TouchSequenceIsReplaced := by
  intro c v ts e he k
  have hactive : ∀ b, (v b).getLsbD 7 = false → slotAt v b = some (e b) := fun b h => by
    obtain ⟨hid, hx, hy⟩ := he b
    exact slotAt_eq_some h hid hx hy
  have hinactive : ∀ b, (v b).getLsbD 7 = true → slotAt v b = none := fun b => slotAt_eq_none
  refine ⟨fun h0 h1 => ?_, fun h0 h1 => ?_, fun h0 h1 => ?_, fun h0 h1 => ?_⟩
  · exact decodeView_touch (hactive 34 h0) (hactive 38 h1)
  · exact decodeView_touch (hactive 34 h0) (hinactive 38 h1)
  · exact decodeView_touch (hinactive 34 h0) (hactive 38 h1)
  · exact decodeView_touch (hinactive 34 h0) (hinactive 38 h1)

/-! ### What the decoder does not read, and what it always leaves -/

/-- A report's byte enters the battery and charging registers by its low five bits (30 R76). -/
theorem byte29_fields {b b' : Byte} (h : b'.extractLsb' 0 5 = b.extractLsb' 0 5) :
    batteryNibble b' = batteryNibble b ∧ chargingFlag b' = chargingFlag b := by
  have hnibble : ∀ x : Byte, (x.extractLsb' 0 5).extractLsb' 0 4 = batteryNibble x := fun x =>
    extract_extract x (by decide)
  have hflag : ∀ x : Byte, (x.extractLsb' 0 5).getLsbD 4 = chargingFlag x := fun x => by simp [chargingFlag]
  exact ⟨by rw [← hnibble, h, hnibble], by rw [← hflag, h, hflag]⟩

/-- Settles O28: every byte that some register reads is one on which the views agree. -/
theorem ignoredBytesDoNotMatter : Obligations.IgnoredBytesDoNotMatter := by
  intro c v v' ts hv h6 h29
  have hslot : ∀ b, b = 34 ∨ b = 38 → slotAt v' b = slotAt v b := by
    rintro b (rfl | rfl) <;> simp [slotAt, hv]
  have htouch : touchSeq v' = touchSeq v := by
    rw [touchSeq, touchSeq, hslot 34 (.inl rfl), hslot 38 (.inr rfl)]
  have hbtn : buttons (v 4) (v 5) (v' 6) = buttons (v 4) (v 5) (v 6) := by
    unfold buttons
    rw [h6]
  obtain ⟨hnibble, hflag⟩ := byte29_fields h29
  simp [decodeView, u16le, hv, hbtn, hnibble, hflag, htouch]

/-- Equal bytes below 42 give equal registers (20 R63). -/
theorem decodeView_congr (c : Config) {v v' : View} (ts : Stamp) (h : ∀ o, o < 42 → v' o = v o) :
    decodeView c v' ts = decodeView c v ts :=
  ignoredBytesDoNotMatter c v v' ts (fun o ho _ _ _ _ _ => h o ho) (by rw [h 6 (by decide)]) (by rw [h 29 (by decide)])

theorem decodeView_batteryOk (c : Config) (v : View) (ts : Stamp) : BatteryOk (decodeView c v ts) :=
  batt_mem_batteryValues (batteryNibble (v 29)) (chargingFlag (v 29))

theorem touchSeq_length_le (v : View) : (touchSeq v).length ≤ 2 := by
  rw [touchSeq, List.length_append]
  exact Nat.add_le_add Option.length_toList_le Option.length_toList_le

/-- At most two entries, and zeros beyond them (10 R40 b). -/
theorem decodeView_touchOk (c : Config) (v : View) (ts : Stamp) : TouchOk (decodeView c v ts) := by
  have hlen := touchSeq_length_le v
  have hn : (decodeView c v ts).touchN.toNat = (touchSeq v).length := Nat.mod_eq_of_lt (by omega)
  have htouch : ∀ j : Fin 2, (decodeView c v ts).touch[j] = (touchSeq v).getD j Touch.zero := fun j => by
    fin_cases j <;> rfl
  refine ⟨hn ▸ hlen, fun j hj => ?_⟩
  rw [htouch, List.getD_eq_default _ _ (hn ▸ hj)]

/-- No code sets two opposite directions (10 R40 f). -/
theorem decodeView_dpadOk (c : Config) (v : View) (ts : Stamp) : DpadOk (decodeView c v ts) := by
  obtain ⟨hup, hright, hdown, hleft⟩ := dpadCodesSetTheirDirections c v ts _ rfl
  unfold DpadOk
  rw [hup, hright, hdown, hleft]
  omega

end Sys2Proof.Machine

/-! Report delivery and `DECODE` case by case (spec 40, 41 R120, R137): one equation per case of the interface and the length. -/

namespace Sys2Proof.Machine

open Sys2Proof.Safety

section
variable {c : Config} {len : BitVec 16} {s : State}

theorem receive_first_63 (h : s.iface = .disc) (hlen : len.toNat = 63) : receive c len s =
    State.complete (some .usbRes) { s with iface := .usb, ctl := decodeView c (s.rxView 0) s.tsIn } := by
  have hcases := receive_cases c len s
  grind

theorem receive_first_other (h : s.iface = .disc) (hlen : len.toNat ≠ 63) :
    receive c len s = State.complete (some (.featReq 0x02)) { s with iface := .bt } := by
  have hcases := receive_cases c len s
  grind

theorem receive_usb (h : s.iface = .usb) (hlen : 42 ≤ len.toNat) :
    receive c len s = State.complete none { s with ctl := decodeView c (s.rxView 0) s.tsIn } := by
  have hcases := receive_cases c len s
  grind

theorem receive_bt (h : s.iface = .bt) (hlen : 44 ≤ len.toNat) : receive c len s =
    State.complete (some (.featReq 0x02)) { s with ctl := decodeView c (s.rxView 2) s.tsIn } := by
  have hcases := receive_cases c len s
  grind

theorem receive_short (h : (s.iface = .usb ∧ len.toNat < 42) ∨ (s.iface = .bt ∧ len.toNat < 44)) :
    receive c len s = s.raise .eBounds := by
  have hcases := receive_cases c len s
  grind

end

theorem exec_rxr (len : BitVec 16) (rid : Byte) (s : State) : exec (.rxr len rid) s = .next (receive hw len s) := rfl

theorem exec_decode (view : List Byte) (s : State) : exec (.decode view) s = .next (decodeOp hw view s) := rfl

/-- Settles O18: the three cases of `DETECT`, and the interface `RXR` leaves in the two of them that start from DISC. -/
theorem detectAnswersByLength : Obligations.DetectAnswersByLength := by
  refine ⟨fun n cur s => ⟨(detect n cur).1, (detect n cur).2, rfl, ?_⟩, fun len rid s h => ⟨_, exec_rxr len rid s, ?_⟩⟩
  · obtain ⟨hcur, e⟩ | ⟨hcur, hn, e⟩ | ⟨hcur, hn, e⟩ := detect_cases n cur
    · rw [e]; simp [hcur]
    · rw [e]; simp [hcur, hn]
    · rw [e]; simp [hcur, hn]
  · by_cases hlen : len.toNat = 63
    · rw [receive_first_63 h hlen, if_pos hlen]
      rfl
    · rw [receive_first_other h hlen, if_neg hlen]
      rfl

/-- Settles O19. -/
theorem firstReportOf63ResolvesToUsb : Obligations.FirstReportOf63ResolvesToUsb := by
  intro len rid s h hlen
  rw [exec_rxr, receive_first_63 h hlen]
  exact ⟨rfl, rfl⟩

/-- Settles O20. -/
theorem otherFirstReportResolvesToBluetooth : Obligations.OtherFirstReportResolvesToBluetooth := by
  intro len rid s h hlen
  rw [exec_rxr, receive_first_other h hlen]
  rfl

/-- Settles O21. -/
theorem resolvedReportIsDecoded : Obligations.ResolvedReportIsDecoded := by
  intro len rid s
  rw [exec_rxr]
  refine ⟨fun h hlen => ?_, fun h hlen => ?_⟩
  · rw [receive_usb h hlen]
    exact ⟨rfl, rfl⟩
  · rw [receive_bt h hlen]
    exact ⟨rfl, rfl⟩

/-- Settles O22. -/
theorem shortReportIsRefusedWhole : Obligations.ShortReportIsRefusedWhole := by
  intro len rid s h
  rw [exec_rxr, receive_short h]
  rfl

/-- Settles O23: in each case of `RXR` both states take the same one, and the two views agree below offset 42. -/
theorem reportReadsOnlyItsOwnBytes : Obligations.ReportReadsOnlyItsOwnBytes := by
  intro len rid rid' s s' hi hctl hts hrx
  refine ⟨_, _, exec_rxr len rid s, exec_rxr len rid' s', ?_⟩
  have hview : ∀ base, (s.iface = .bt → 2 ≤ base) → base + 42 ≤ min len.toNat 44 →
      decodeView hw (s'.rxView base) s'.tsIn = decodeView hw (s.rxView base) s.tsIn := fun base hbt hlen => by
    rw [hts]
    exact decodeView_congr hw _ fun o ho => hrx (base + o) (by omega) fun h => (hbt h).trans (Nat.le_add_right _ _)
  obtain ⟨h, hl, e⟩ | ⟨h, hl, e⟩ | ⟨h, hl, e⟩ | ⟨h, hl, e⟩ | ⟨h, hl, e⟩ | ⟨h, hl, e⟩ := receive_cases hw len s
  · rw [e, receive_first_other (hi.trans h) hl]
    exact ⟨rfl, hctl, rfl⟩
  · rw [e, receive_first_63 (hi.trans h) hl, hview 0 (by simp [h]) (by omega)]
    exact ⟨rfl, rfl, rfl⟩
  · rw [e, receive_short (.inl ⟨hi.trans h, hl⟩)]
    exact ⟨hi, hctl, rfl⟩
  · rw [e, receive_usb (hi.trans h) hl, hview 0 (by simp [h]) (by omega)]
    exact ⟨hi, rfl, rfl⟩
  · rw [e, receive_short (.inr ⟨hi.trans h, hl⟩)]
    exact ⟨hi, hctl, rfl⟩
  · rw [e, receive_bt (hi.trans h) hl, hview 2 (fun _ => le_rfl) (by omega)]
    exact ⟨hi, rfl, rfl⟩

section
variable {c : Config} {view : List Byte} {s : State}

theorem decodeOp_disc (h : s.iface = .disc) : decodeOp c view s = s.raise .ePrecond := if_pos h

theorem decodeOp_short (h : s.iface ≠ .disc) (hlen : view.length < 42) : decodeOp c view s = s.raise .eBounds :=
  (if_neg h).trans (if_pos hlen)

theorem decodeOp_long (h : s.iface ≠ .disc) (hlen : 42 ≤ view.length) : decodeOp c view s =
    State.complete none { s with ctl := decodeView c (listView view) s.ctl.timestamp } :=
  (if_neg h).trans (if_neg (Nat.not_lt.2 hlen))

end

/-- Settles O24. -/
theorem decodeWritesTheDecodersRegisters : Obligations.DecodeWritesTheDecodersRegisters := by
  intro view s h hlen
  rw [exec_decode, decodeOp_long h hlen]
  exact ⟨rfl, rfl⟩

/-- `RXR` answers OK or E_BOUNDS (40 R100). -/
theorem receive_status (c : Config) (len : BitVec 16) (s : State) :
    ∃ ev, (receive c len s).rsp = some ⟨.ok, ev⟩ ∨ (receive c len s).rsp = some ⟨.eBounds, none⟩ := by
  obtain ⟨-, -, e⟩ | ⟨-, -, e⟩ | ⟨-, -, e⟩ | ⟨-, -, e⟩ | ⟨-, -, e⟩ | ⟨-, -, e⟩ := receive_cases c len s <;> simp [e]

/-- Settles O25: `DECODE` looks at the interface first, and `RXR` resolves it before it decodes. -/
theorem decodeBeforeResolutionIsAnError : Obligations.DecodeBeforeResolutionIsAnError := by
  refine ⟨fun view s h => ?_, fun len rid s => ?_⟩
  · rw [exec_decode, decodeOp_disc h]
    rfl
  · obtain ⟨ev, h | h⟩ := receive_status hw len s
    · exact ⟨_, _, exec_rxr len rid s, h, by simp⟩
    · exact ⟨_, _, exec_rxr len rid s, h, by simp⟩

/-- Settles O26. -/
theorem decodeOfAShortViewIsRefused : Obligations.DecodeOfAShortViewIsRefused := by
  intro view s h hlen
  rw [exec_decode, decodeOp_short h hlen]
  rfl

/-- Settles O27: the second `DECODE` takes the same case as the first, which it leaves as it is. -/
theorem decodingTwiceIsDecodingOnce : Obligations.DecodingTwiceIsDecodingOnce := by
  intro view s t h
  cases h
  rw [exec_decode]
  refine congrArg Host.Outcome.next ?_
  by_cases hi : s.iface = .disc
  · rw [decodeOp_disc hi]
    exact decodeOp_disc hi
  · by_cases hlen : view.length < 42
    · rw [decodeOp_short hi hlen]
      exact decodeOp_short hi hlen
    · have hlen := Nat.le_of_not_lt hlen
      rw [decodeOp_long hi hlen]
      exact decodeOp_long hi hlen

end Sys2Proof.Machine

/-! The setters, `SEND` and the frames (spec 42, 30 R78, R79): what a sent frame shows, and the bytes of the frames for every parameter
value. -/

namespace Sys2Proof.Machine

open Sys2Proof.Safety

/-! ### `CLAMP8` -/

theorem clamp8_of_neg {v : BitVec 32} (h : v.toInt < 0) : clamp8 v = 0 := by
  rw [clamp8, clampInt, if_pos (show setterValue v < 0 from h)]
  rfl

theorem clamp8_of_big {v : BitVec 32} (h : 255 < v.toInt) : clamp8 v = 255 := by
  rw [clamp8, clampInt, if_neg (show ¬setterValue v < 0 from fun h' => by unfold setterValue at h'; omega),
    if_pos (show 255 < setterValue v from h)]
  rfl

/-! ### `SEND`: every field but TX, the response and the returned value stands -/

section
variable (c : Config) (s : State)

@[simp] theorem send_iface : (send c s).iface = s.iface := by rw [send_frame]
@[simp] theorem send_ctl : (send c s).ctl = s.ctl := by rw [send_frame]
@[simp] theorem send_rumble : (send c s).rumble = s.rumble := by rw [send_frame]
@[simp] theorem send_lightbar : (send c s).lightbar = s.lightbar := by rw [send_frame]
@[simp] theorem send_rx : (send c s).rx = s.rx := by rw [send_frame]
@[simp] theorem send_tsIn : (send c s).tsIn = s.tsIn := by rw [send_frame]
@[simp] theorem send_txOut : (send c s).txOut = s.txOut := by rw [send_frame]
@[simp] theorem send_regOut : (send c s).regOut = s.regOut := by rw [send_frame]
@[simp] theorem send_input : (send c s).input = s.input := by rw [send_frame]
@[simp] theorem send_call : (send c s).call = s.call := by rw [send_frame]

end

/-- Settles O39: the three ranges of `CLAMP8`, and each setter's register after `SEND`. -/
theorem clampIsSigned : Obligations.ClampIsSigned := by
  intro v s
  refine ⟨clamp8 v, rfl, rfl, fun h => ?_, fun h => ?_, clamp8_of_range v, ⟨_, rfl, ?_⟩, ⟨_, rfl, ?_⟩, ⟨_, rfl, ?_⟩,
    ⟨_, rfl, ?_⟩, ⟨_, rfl, ?_⟩⟩
  · rw [clamp8_of_neg h]; rfl
  · rw [clamp8_of_big h]; rfl
  · rw [send_rumble]
  · rw [send_rumble]
  · rw [send_lightbar]
  · rw [send_lightbar]
  · rw [send_lightbar]

/-! ### The frames of this hardware -/

theorem frameUsb_hw (m : Rumble) (l : Lightbar) : frameUsb hw m l = usbFrame m l := rfl

theorem frameBtHead_hw (m : Rumble) (l : Lightbar) : frameBtHead hw m l = btHead m l := rfl

theorem frameBt_hw (m : Rumble) (l : Lightbar) : frameBt hw m l = btFrame m l := by
  rw [frameBt, frameBtHead_hw]
  rfl

/-- `SEND` from a state that differs in registers only shows the frame of the registers it sends (42 R169). -/
theorem sent_send {s u : State} (hi : u.iface = s.iface) (htx : ∀ a, u.txByte a = s.txByte a) : Sent s (send hw u) := by
  unfold Sent
  rw [send_rumble, send_lightbar, ← frameUsb_hw, ← frameBt_hw]
  refine ⟨fun h => ?_, fun h => ?_⟩
  · obtain ⟨hrsp, hbytes⟩ := send_usb hw u (hi.trans h)
    exact ⟨hrsp, fun a => by rw [hbytes, htx]⟩
  · obtain ⟨hrsp, hbytes⟩ := send_bt hw u (hi.trans h)
    exact ⟨hrsp, fun a => by rw [hbytes, htx]⟩

/-- Settles O40: each setter is `SEND` after the write of its register. -/
theorem rumbleSettersWriteAndSend : Obligations.RumbleSettersWriteAndSend := fun _ _ _ =>
  ⟨⟨_, rfl, send_frame hw _, sent_send rfl fun _ => rfl⟩, ⟨_, rfl, send_frame hw _, sent_send rfl fun _ => rfl⟩⟩

/-- Settles O41: as for the rumble setters. -/
theorem lightbarSettersWriteAndSend : Obligations.LightbarSettersWriteAndSend := fun _ _ _ =>
  ⟨⟨_, rfl, send_frame hw _, sent_send rfl fun _ => rfl⟩, ⟨_, rfl, send_frame hw _, sent_send rfl fun _ => rfl⟩,
    ⟨_, rfl, send_frame hw _, sent_send rfl fun _ => rfl⟩⟩

/-- Settles O43: `ENC` and `SEND` are the same function of the state. -/
theorem resendWritesNoRegister : Obligations.ResendWritesNoRegister := fun _ _ _ =>
  ⟨⟨_, rfl, send_frame hw _, sent_send rfl fun _ => rfl⟩, ⟨_, rfl, send_frame hw _, sent_send rfl fun _ => rfl⟩⟩

/-- An operation that is `SEND` of some unresolved state raises E_PRECOND from that state. -/
theorem next_send_disc {u : State} (h : u.iface = .disc) :
    (Host.Outcome.next (send hw u) : Host.Outcome State Fault Refusal) = .next (u.raise .ePrecond) :=
  congrArg Host.Outcome.next (send_disc hw u h)

/-- Settles O42: each setter is `SEND` after the write of its register. -/
theorem settersBeforeResolutionKeepTheValue : Obligations.SettersBeforeResolutionKeepTheValue := by
  rintro val s u h rfl
  exact ⟨next_send_disc h, next_send_disc h, next_send_disc h, next_send_disc h, next_send_disc h⟩

/-- Settles O44. -/
theorem resendBeforeResolutionIsAnError : Obligations.ResendBeforeResolutionIsAnError := fun _ _ h =>
  ⟨next_send_disc h, next_send_disc h⟩

/-- Settles O45: TX by the frame written to it, the bodies by their slices of it. -/
theorem frameBuildersWriteTheirFrame : Obligations.FrameBuildersWriteTheirFrame := by
  intro s
  refine ⟨⟨_, rfl, State.writeTx_txByte s (usbFrame s.rumble s.lightbar), ?_⟩, ⟨_, rfl, ?_, ?_⟩, rfl, rfl, rfl⟩
  · rw [usbBody_encodeUsb, frameUsb_hw]
    rfl
  · rw [← frameBt_hw]
    exact State.writeTx_txByte s (frameBt hw s.rumble s.lightbar)
  · rw [btBody_encodeBt, frameBt_hw]
    rfl

/-! ### The frames for every parameter value -/

section
variable (c : Config) (m : Rumble) (l : Lightbar)

theorem frameBt_take : (frameBt c m l).take 75 = frameBtHead c m l := List.take_left' (frameBtHead_length c m l)

theorem frameBt_getD_head {o : Nat} (ho : o < 75) : (frameBt c m l).getD o 0 = (frameBtHead c m l).getD o 0 :=
  List.getD_append _ _ _ _ (by rwa [frameBtHead_length])

theorem frameBt_getD_trailer (k : Nat) :
    (frameBt c m l).getD (75 + k) 0 = (trailer c (crc32 c (frameBtHead c m l))).getD k 0 := by
  rw [frameBt, List.getD_append_right _ _ _ _ (by rw [frameBtHead_length]; omega), frameBtHead_length,
    Nat.add_sub_cancel_left]

end

/-- Settles O46: the four trailer bytes put together again are the checksum, in either order. -/
theorem trailerIsTheChecksumOfTheRest : Obligations.TrailerIsTheChecksumOfTheRest := by
  rintro c m l f rfl
  rw [frameBt_take, frameBt_getD_trailer c m l 0, frameBt_getD_trailer c m l 1, frameBt_getD_trailer c m l 2,
    frameBt_getD_trailer c m l 3, trailer]
  refine ⟨frameBt_length c m l, fun h => ?_, fun h => ?_⟩
  · rw [if_pos h]
    exact Laws.RoundTrip.bytes_append _
  · rw [if_neg (ne_true_of_eq_false h)]
    exact Laws.RoundTrip.bytes_append _

/-- Settles O47: the offsets are distinct and lie above the pre-header, so no later write of the frame meets an earlier one. -/
theorem bluetoothBytesStandAtTheirOffsets : Obligations.BluetoothBytesStandAtTheirOffsets := by
  rintro c m l f ⟨-, -, -, hnodup, hrange⟩ rfl
  have hbyte : ∀ o, o < 75 → (frameBt c m l).getD o 0 = _ := fun o ho =>
    (frameBt_getD_head c m l ho).trans (frameBtHead_getD c m l o ho)
  have hnamed : ∀ o ∈ c.btOffsets, (frameBt c m l).getD o 0 = _ := fun o ho => hbyte o (hrange o ho).2
  simp only [Config.btOffsets, List.nodup_cons, List.mem_cons, List.not_mem_nil, or_false, not_or, forall_eq_or_imp,
    forall_eq, List.nodup_nil] at hnodup hrange hnamed
  obtain ⟨hpoll, hflags, hlight, hheavy, hr, hg, hb⟩ := hnamed
  rw [hbyte 0 (by decide), hbyte 1 (by decide), hpoll, hflags, hlight, hheavy, hr, hg, hb]
  refine ⟨?_, ?_, ?_, ?_, ?_, ?_, ?_, ?_, ?_, fun o h2 h75 ho => ?_⟩
  case refine_10 =>
    rw [hbyte o h75]
    simp only [Config.btOffsets, List.mem_cons, List.not_mem_nil, or_false, not_or] at ho
    grind
  all_goals grind

/-- Settles O48: each register stands in the frame at a place of its own. -/
theorem framesTellTheRegistersApart : Obligations.FramesTellTheRegistersApart := by
  rintro c ⟨light, heavy⟩ ⟨light', heavy'⟩ ⟨r, g, b⟩ ⟨r', g', b'⟩ hvalid
  refine ⟨fun h => ?_, fun h => ?_⟩
  · simpa [frameUsb, and_assoc] using h
  · obtain ⟨-, -, -, -, hlight, hheavy, hr, hg, hb, -⟩ :=
      bluetoothBytesStandAtTheirOffsets c ⟨light, heavy⟩ ⟨r, g, b⟩ _ hvalid rfl
    obtain ⟨-, -, -, -, hlight', hheavy', hr', hg', hb', -⟩ :=
      bluetoothBytesStandAtTheirOffsets c ⟨light', heavy'⟩ ⟨r', g', b'⟩ _ hvalid rfl
    rw [← h] at hlight' hheavy' hr' hg' hb'
    obtain rfl := hlight.symm.trans hlight'
    obtain rfl := hheavy.symm.trans hheavy'
    obtain rfl := hr.symm.trans hr'
    obtain rfl := hg.symm.trans hg'
    obtain rfl := hb.symm.trans hb'
    exact ⟨rfl, rfl⟩

end Sys2Proof.Machine

/-! The checksum (spec 43): a round is linear, so eight rounds of a word are the table entry of its low byte and the shifted word; both
the table form and the residue follow. -/

namespace Sys2Proof.Machine

open Sys2Proof.Safety

section
variable (c : Config)

/-- A round is linear over exclusive-or (43 R190). -/
theorem crcBit_xor (x y : BitVec 32) : crcBit c (x ^^^ y) = crcBit c x ^^^ crcBit c y := by
  unfold crcBit
  rw [BitVec.getLsbD_xor, BitVec.ushiftRight_xor_distrib]
  cases x.getLsbD 0
  · cases y.getLsbD 0
    · rfl
    · exact BitVec.xor_assoc _ _ _
  · have hswap : ∀ a b p : BitVec 32, a ^^^ b ^^^ p = a ^^^ p ^^^ b := fun a b p => by
      rw [BitVec.xor_assoc, BitVec.xor_comm b p, BitVec.xor_assoc]
    cases y.getLsbD 0
    · exact hswap _ _ _
    · show x >>> 1 ^^^ y >>> 1 = x >>> 1 ^^^ c.crcPoly ^^^ (y >>> 1 ^^^ c.crcPoly)
      rw [← BitVec.xor_assoc, hswap (x >>> 1), BitVec.xor_assoc _ c.crcPoly, BitVec.xor_self, BitVec.xor_zero]

theorem crcBits_xor (n : Nat) (x y : BitVec 32) : crcBits c n (x ^^^ y) = crcBits c n x ^^^ crcBits c n y := by
  induction n generalizing x y with
  | zero => rfl
  | succ n ih => rw [crcBits, crcBit_xor, ih]; rfl

theorem crcBits_add (k n : Nat) (x : BitVec 32) : crcBits c (k + n) x = crcBits c n (crcBits c k x) := by
  induction k generalizing x with
  | zero => rw [Nat.zero_add]; rfl
  | succ k ih => rw [Nat.add_right_comm, crcBits, ih]; rfl

/-- Rounds that shift out zeros only shift. -/
theorem crcBits_of_low_zero {n : Nat} {x : BitVec 32} (h : ∀ k, k < n → x.getLsbD k = false) :
    crcBits c n x = x >>> n := by
  induction n generalizing x with
  | zero => exact (BitVec.ushiftRight_zero x).symm
  | succ n ih =>
    have hbit : crcBit c x = x >>> 1 := by rw [crcBit, h 0 (Nat.succ_pos n)]; rfl
    rw [crcBits, hbit, ih fun k hk => ?_, ← BitVec.shiftRight_add, Nat.add_comm]
    rw [BitVec.getLsbD_ushiftRight, Nat.add_comm]
    exact h (k + 1) (Nat.succ_lt_succ hk)

/-- Eight rounds: the rounds of the low byte, and the rest of the word shifted down (43 R191). -/
theorem crcBits_eight (x : BitVec 32) :
    crcBits c 8 x = crcBits c 8 ((x.extractLsb' 0 8).setWidth 32) ^^^ (x >>> 8) := by
  let low : BitVec 32 := (x.extractLsb' 0 8).setWidth 32
  have hlow : ∀ k, k < 8 → (x ^^^ low).getLsbD k = false := fun k hk => by
    have hk32 : k < 32 := by omega
    simp [low, hk, hk32]
  have hhigh : (x ^^^ low) >>> 8 = x >>> 8 := by
    apply BitVec.eq_of_getLsbD_eq
    intro k _
    simp [low]
  calc crcBits c 8 x = crcBits c 8 (low ^^^ (x ^^^ low)) := by
        rw [BitVec.xor_comm x low, ← BitVec.xor_assoc, BitVec.xor_self, BitVec.zero_xor]
    _ = crcBits c 8 low ^^^ (x >>> 8) := by rw [crcBits_xor, crcBits_of_low_zero c hlow, hhigh]

/-- One byte of a word `w` that was exclusive-ored into the remainder as a whole: the byte enters, the rest of `w` waits. -/
theorem crcBits_next_byte (k n : Nat) (r w : BitVec 32) : crcBits c (8 + n) (r ^^^ (w >>> k)) =
    crcBits c n (crcByte c r (w.extractLsb' k 8) ^^^ (w >>> (k + 8))) := by
  have hbyte : (w >>> k).extractLsb' 0 8 = w.extractLsb' k 8 := by
    apply BitVec.eq_of_getLsbD_eq
    intro i hi
    simp [hi]
  rw [crcBits_add, crcBits_xor, crcBits_eight c (w >>> k), hbyte, ← BitVec.xor_assoc, ← crcBits_xor,
    ← BitVec.shiftRight_add]
  rfl

/-- The four bytes of a word, least significant first, are 32 rounds with the whole word exclusive-ored in. -/
theorem foldl_crcByte_lsbFirst (r w : BitVec 32) :
    (lsbFirst w).foldl (crcByte c) r = crcBits c 32 (r ^^^ w) := by
  have hend : w >>> (24 + 8) = 0#32 := BitVec.ushiftRight_eq_zero (le_refl 32)
  calc (lsbFirst w).foldl (crcByte c) r
      = crcBits c 0 ((lsbFirst w).foldl (crcByte c) r ^^^ (w >>> (24 + 8))) := by
        rw [hend, BitVec.xor_zero]; rfl
    _ = crcBits c 32 (r ^^^ (w >>> 0)) := by
        rw [crcBits_next_byte c 0 24, crcBits_next_byte c 8 16, crcBits_next_byte c 16 8, crcBits_next_byte c 24 0]
        rfl
    _ = crcBits c 32 (r ^^^ w) := by rw [BitVec.ushiftRight_zero]

end

/-- The listed table: entry `b` is eight rounds of `b` (43 R191). -/
theorem crcTable_getD : ∀ b : Byte, crcTable.getD b.toNat 0 = crcBits hw 8 (b.setWidth 32) := by decide +kernel

/-- One byte by table is one byte by rounds. -/
theorem crcTableByte_eq_crcByte (x : BitVec 32) (b : Byte) : crcTableByte x b = crcByte hw x b := by
  have hindex : ((x ^^^ b.setWidth 32) &&& 0xFF).toNat = ((x ^^^ b.setWidth 32).extractLsb' 0 8).toNat := by
    rw [BitVec.toNat_and, BitVec.extractLsb'_toNat]
    exact Nat.and_two_pow_sub_one_eq_mod _ 8
  have hshift : (x ^^^ b.setWidth 32) >>> 8 = x >>> 8 := by
    apply BitVec.eq_of_getLsbD_eq
    intro k _
    simp
  rw [crcTableByte, hindex, crcTable_getD, crcByte, crcBits_eight hw (x ^^^ b.setWidth 32), hshift]

/-- Settles O50: byte by byte. -/
theorem crcByTableIsTheCrc : Obligations.CrcByTableIsTheCrc := by
  intro m
  have hbyte : crcTableByte = crcByte hw := funext fun x => funext fun b => crcTableByte_eq_crcByte x b
  rw [crc32ByTable, hbyte]
  rfl

/-- Settles O51: the checksum cancels the remainder it was made from, whatever the message. -/
theorem crcOfAMessageWithItsTrailerIsFixed : Obligations.CrcOfAMessageWithItsTrailerIsFixed := by
  have hmsg : ∀ m : List Byte, crc32 hw (m ++ lsbFirst (crc32 hw m)) = 0x2144DF1C := fun m => by
    have hcancel : m.foldl (crcByte hw) hw.crcInit ^^^ crc32 hw m = hw.crcXorOut := by
      rw [crc32, ← BitVec.xor_assoc, BitVec.xor_self, BitVec.zero_xor]
    rw [crc32, List.foldl_append, foldl_crcByte_lsbFirst, hcancel]
    decide +kernel
  exact ⟨hmsg, fun m l => hmsg (btHead m l)⟩

/-- Settles O49: the check values by evaluation. -/
theorem crcAnswersTheCheckValues : Obligations.CrcAnswersTheCheckValues :=
  ⟨fun _ _ => rfl, by decide +kernel⟩

end Sys2Proof.Machine

/-! The host's ports (spec 30 R85, 20 R55, R56, 10 R36), the response words (30 R80), NOP and reset (40 R107, 70 R231), and the delivery of
a report (30 R84). -/

namespace Sys2Proof.Machine

open Sys2Proof.Safety

/-! ### One step at each port -/

section
variable {s : State} {rest : List Action}

theorem step_call {op : SubOp} {l : List Byte} {i : Instr} (hc : s.call = some (op, l)) (hd : decodeCall op l = .ok i) :
    step s = exec i (callTaken s) := by
  simp only [step, hc, hd]

theorem step_present {w : CmdWord} {ts : Stamp} {i : Instr} (hc : s.call = none) (hin : s.input = .present w ts :: rest)
    (hd : decodeCmd w = .ok i) : step s = exec i (sample rest ts s) := by
  simp only [step, hc, hin, hd]

theorem step_illegal {w : CmdWord} {ts : Stamp} {why : Reject} (hc : s.call = none)
    (hin : s.input = .present w ts :: rest) (hd : decodeCmd w = .error why) :
    step s = .next ((sample rest ts s).raise .eIllegal) := by
  simp only [step, hc, hin, hd, illegalCommand]

theorem step_reset (hc : s.call = none) (hin : s.input = .reset :: rest) : step s = .next (hostReset (taken rest s)) := by
  simp only [step, hc, hin]

theorem step_rxWrite {a : BitVec 7} {d : Byte} (hc : s.call = none) (hin : s.input = .rxWrite a d :: rest) :
    step s = .next (hostRxWrite hw a d (taken rest s)) := by
  simp only [step, hc, hin]

theorem step_txRead {a : BitVec 7} (hc : s.call = none) (hin : s.input = .txRead a :: rest) :
    step s = hostTxRead a (taken rest s) := by
  simp only [step, hc, hin]

theorem step_regRead {a : BitVec 6} (hc : s.call = none) (hin : s.input = .regRead a :: rest) :
    step s = .next (hostRegRead a (taken rest s)) := by
  simp only [step, hc, hin]

end

theorem hostTxRead_inside {a : BitVec 7} (h : a.toNat ≤ 78) (s : State) :
    hostTxRead a s = .next { s with txOut := s.txByte a.toNat } :=
  if_pos (Nat.lt_succ_of_le h)

theorem hostTxRead_outside {a : BitVec 7} (h : 79 ≤ a.toNat) (s : State) : hostTxRead a s = .fault (.txAddress a) :=
  if_neg (Nat.not_lt.2 h)

/-- Settles O5: both clauses run what the words decode to. -/
theorem stepRunsTheDecodedOperation : Obligations.StepRunsTheDecodedOperation :=
  ⟨fun _ _ _ _ _ hc hin hd => step_present hc hin hd, fun _ _ _ _ hc hd => step_call hc hd⟩

/-- Settles O6. -/
theorem illegalCommandHasNoEffect : Obligations.IllegalCommandHasNoEffect := fun _ _ _ _ _ hc hin hd =>
  step_illegal hc hin hd

/-- The write port has 128 addresses, all inside RXCAP (92 D3), so its byte is always stored and nothing else changes. -/
theorem hostRxWrite_spec (a : BitVec 7) (d : Byte) (s : State) :
    hostRxWrite hw a d s = { s with rx := (hostRxWrite hw a d s).rx } ∧
      ∀ b, (hostRxWrite hw a d s).rxByte b = if b = a.toNat then d else s.rxByte b := by
  have ha : a.toNat < hw.rxCap := a.isLt
  refine ⟨(State.writeRx_spec hw s a.toNat d 0).2, fun b => ?_⟩
  obtain ⟨hbyte, -⟩ := State.writeRx_spec hw s a.toNat d b
  rw [hostRxWrite, hbyte]
  simp [ha]

/-- Settles O7. -/
theorem rxPortWriteStoresOneByte : Obligations.RxPortWriteStoresOneByte := by
  intro s a d rest hc hin
  obtain ⟨hframe, hbytes⟩ := hostRxWrite_spec a d (taken rest s)
  exact ⟨_, step_rxWrite hc hin, hframe, hbytes⟩

/-- Settles O8: the TX space ends between the second clause and the third. -/
theorem portReadsHaveNoSideEffect : Obligations.PortReadsHaveNoSideEffect :=
  ⟨fun _ _ _ hc hin => step_regRead hc hin,
    fun _ _ _ hc hin ha => (step_txRead hc hin).trans (hostTxRead_inside ha _),
    fun _ _ _ hc hin ha => (step_txRead hc hin).trans (hostTxRead_outside ha _)⟩

/-! ### Delivering a report -/

/-- The host's writes of `bs` at the addresses from `n` up. -/
def rxWrites (n : Nat) (bs : List Byte) : List Action :=
  (bs.zipIdx n).map fun p => Action.rxWrite (BitVec.ofNat 7 p.2) p.1

theorem rxWrites_cons (n : Nat) (b : Byte) (bs : List Byte) :
    rxWrites n (b :: bs) = .rxWrite (BitVec.ofNat 7 n) b :: rxWrites (n + 1) bs := rfl

/-- The actions of a delivered report are the writes of its first 128 bytes, then the command (30 R84). -/
theorem deliverReport_eq (bytes : List Byte) (len : BitVec 16) (rid : Byte) (ts : Stamp) :
    deliverReport bytes len rid ts = rxWrites 0 (bytes.take 128) ++ [.present (rxrWord len rid) ts] := rfl

/-- A run over the writes of `bs` from address `n` up: RX holds `bs` there, and nothing else changed (20 R55). -/
theorem run_rxWrites (k : Nat) (rest : List Action) (bs : List Byte) (n : Nat) (s : State) (hn : n + bs.length ≤ 128)
    (hc : s.call = none) (hin : s.input = rxWrites n bs ++ rest) :
    ∃ t, core.run (bs.length + k) s = core.run k t ∧ t = { s with rx := t.rx, input := rest } ∧
      ∀ a, t.rxByte a = if n ≤ a ∧ a < n + bs.length then bs.getD (a - n) 0 else s.rxByte a := by
  induction bs generalizing n s with
  | nil =>
    refine ⟨s, by rw [List.length_nil, Nat.zero_add], ?_, fun a => ?_⟩
    · exact State.ext rfl rfl rfl rfl rfl rfl rfl rfl rfl rfl rfl hin rfl
    · rw [if_neg]
      simp
  | cons b bs ih =>
    rw [List.length_cons] at hn ⊢
    rw [rxWrites_cons] at hin
    obtain ⟨hframe, hbytes⟩ := hostRxWrite_spec (BitVec.ofNat 7 n) b (taken (rxWrites (n + 1) bs ++ rest) s)
    have hstep := step_rxWrite hc hin
    generalize hostRxWrite hw (BitVec.ofNat 7 n) b (taken (rxWrites (n + 1) bs ++ rest) s) = u at hframe hbytes hstep
    have hcall : u.call = none := by rw [hframe]; exact hc
    have hinput : u.input = rxWrites (n + 1) bs ++ rest := by rw [hframe]; rfl
    have haddr : (BitVec.ofNat 7 n).toNat = n := Nat.mod_eq_of_lt (by omega)
    obtain ⟨t, hrun, ht, htbytes⟩ := ih (n + 1) u (by omega) hcall hinput
    refine ⟨t, ?_, ?_, fun a => ?_⟩
    · rw [Nat.add_right_comm, run_step _ _ _ hstep, hrun]
    · rw [ht, hframe]
      rfl
    · rw [htbytes, hbytes, haddr]
      by_cases hbelow : a < n
      · rw [if_neg (by omega), if_neg (by omega), if_neg (by omega)]
        rfl
      · obtain rfl | hlater := Nat.eq_or_lt_of_not_lt hbelow
        · rw [if_neg (by omega), if_pos rfl, if_pos (by omega), Nat.sub_self]
          rfl
        · rw [if_neg (show ¬a = n by omega)]
          by_cases habove : a < n + (bs.length + 1)
          · rw [if_pos (by omega), if_pos (by omega), show a - n = a - (n + 1) + 1 by omega]
            rfl
          · rw [if_neg (by omega), if_neg (by omega)]
            rfl

/-- Settles O9: the writes, then the step that runs `RXR`. -/
theorem deliveredReportReachesRxr : Obligations.DeliveredReportReachesRxr := by
  intro s bytes len rid ts rest hc hin
  have hin : s.input = rxWrites 0 (bytes.take 128) ++ (.present (rxrWord len rid) ts :: rest) := by
    rw [hin, deliverReport_eq, List.append_assoc]
    rfl
  have hlen : 0 + (bytes.take 128).length ≤ 128 := by simp
  obtain ⟨t, hrun, ht, hbytes⟩ := run_rxWrites 1 _ _ 0 s hlen hc hin
  have hcall : t.call = none := by rw [ht]; exact hc
  have hinput : t.input = .present (rxrWord len rid) ts :: rest := by rw [ht]
  have hdec : decodeCmd (rxrWord len rid) = .ok (.rxr len rid) := Laws.RoundTrip.rxr len rid rfl
  have hstep := step_present hcall hinput hdec
  refine ⟨sample rest ts t, ?_, ?_, fun a => ?_⟩
  · rw [hrun, run_step _ _ _ (hstep.trans (exec_rxr ..)), exec_rxr]
    rfl
  · rw [ht]
    rfl
  · refine (hbytes a).trans ?_
    rw [Nat.zero_add, Nat.sub_zero]
    by_cases ha : a < (bytes.take 128).length
    · have h128 : a < 128 := by omega
      rw [if_pos ⟨Nat.zero_le a, ha⟩, if_pos ha]
      simp [List.getD_eq_getElem?_getD, h128]
    · rw [if_neg fun h => ha h.2, if_neg ha]

/-! ### Response words -/

/-- The word of a frame's event depends on the body by its length only (30 R75). -/
theorem word_tx (rid : Byte) (off : Nat) (body : List Byte) : (Response.mk .ok (some (.tx rid off body))).word =
    (0 : BitVec 1) ++ BitVec.ofNat 7 off ++ (0 : BitVec 1) ++ BitVec.ofNat 7 body.length ++ rid ++
      (0 : BitVec 4) ++ (1 : BitVec 2) ++ (0 : BitVec 2) := rfl

/-- The word of a USB frame's event, whose body has 15 bytes (30 R80). -/
theorem word_tx_usb {body : List Byte} (h : body.length = 15) :
    (Response.mk .ok (some (.tx 0x05 1 body))).word = 0x010F0504 := by
  rw [word_tx, h]
  decide

/-- The word of a Bluetooth frame's event, whose body has 77 bytes (30 R80). -/
theorem word_tx_bt {body : List Byte} (h : body.length = 77) :
    (Response.mk .ok (some (.tx 0x11 2 body))).word = 0x024D1104 := by
  rw [word_tx, h]
  decide

/-- Settles O12: six words by evaluation, and the two whose event carries a body. -/
theorem responseWordsOfEachAnswer : Obligations.ResponseWordsOfEachAnswer :=
  ⟨by decide, by decide, by decide, by decide, by decide, by decide, fun _ => word_tx_usb, fun _ => word_tx_bt⟩

/-! ### The register map -/

theorem extract_from_zero {n : Nat} (v : BitVec n) (k : Nat) : v.extractLsb' 0 k = v.setWidth k := by
  apply BitVec.eq_of_getLsbD_eq
  intro i hi
  simp [hi]

/-- The two bytes of a register of up to 16 bits (10 R36). -/
theorem byteOf_append_two {n : Nat} (v : BitVec n) : byteOf v 1 ++ byteOf v 0 = v.setWidth 16 :=
  (Laws.RoundTrip.extract_adjoin v 0 8 8 rfl).trans (extract_from_zero v 16)

/-- The two bytes of a register of 16 bits. -/
theorem byteOf_append_two_self (v : BitVec 16) : byteOf v 1 ++ byteOf v 0 = v :=
  (byteOf_append_two v).trans (BitVec.setWidth_eq v)

/-- The three bytes of a register of up to 24 bits (10 R36). -/
theorem byteOf_append_three {n : Nat} (v : BitVec n) : byteOf v 2 ++ byteOf v 1 ++ byteOf v 0 = v.setWidth 24 := by
  have hhigh : byteOf v 2 ++ byteOf v 1 = v.extractLsb' 8 16 := Laws.RoundTrip.extract_adjoin v 8 8 8 rfl
  rw [hhigh]
  exact (Laws.RoundTrip.extract_adjoin v 0 8 16 rfl).trans (extract_from_zero v 24)

/-- The eight bytes of a register of 64 bits (10 R36). -/
theorem byteOf_append_eight (v : BitVec 64) : byteOf v 7 ++ byteOf v 6 ++ byteOf v 5 ++ byteOf v 4 ++ byteOf v 3 ++
    byteOf v 2 ++ byteOf v 1 ++ byteOf v 0 = v := by
  have h6 : byteOf v 7 ++ byteOf v 6 = v.extractLsb' 48 16 := Laws.RoundTrip.extract_adjoin v 48 8 8 rfl
  have h5 : v.extractLsb' 48 16 ++ byteOf v 5 = v.extractLsb' 40 24 := Laws.RoundTrip.extract_adjoin v 40 8 16 rfl
  have h4 : v.extractLsb' 40 24 ++ byteOf v 4 = v.extractLsb' 32 32 := Laws.RoundTrip.extract_adjoin v 32 8 24 rfl
  have h3 : v.extractLsb' 32 32 ++ byteOf v 3 = v.extractLsb' 24 40 := Laws.RoundTrip.extract_adjoin v 24 8 32 rfl
  have h2 : v.extractLsb' 24 40 ++ byteOf v 2 = v.extractLsb' 16 48 := Laws.RoundTrip.extract_adjoin v 16 8 40 rfl
  have h1 : v.extractLsb' 16 48 ++ byteOf v 1 = v.extractLsb' 8 56 := Laws.RoundTrip.extract_adjoin v 8 8 48 rfl
  have h0 : v.extractLsb' 8 56 ++ byteOf v 0 = v.extractLsb' 0 64 := Laws.RoundTrip.extract_adjoin v 0 8 56 rfl
  rw [h6, h5, h4, h3, h2, h1, h0]
  exact BitVec.extractLsb'_eq_self

theorem regByte_iface (s : State) :
    s.regByte 0x00 = if s.iface = .disc then 0 else if s.iface = .usb then 1 else 2 := by
  change s.iface.bits.setWidth 8 = _
  cases s.iface <;> rfl

theorem regByte_charging (s : State) : s.regByte 0x02 = if s.ctl.charging then 1 else 0 := by
  change (BitVec.ofBool s.ctl.charging).setWidth 8 = _
  cases s.ctl.charging <;> rfl

/-- The row of a touch entry: its id, a reserved address, and its two coordinates (10 R36). -/
theorem regByte_touch (s : State) (j : Fin 2) : s.regByte (BitVec.ofNat 6 (0x1A + 6 * j)) = s.ctl.touch[j].id.setWidth 8 ∧
    s.regByte (BitVec.ofNat 6 (0x1B + 6 * j)) = 0 ∧
    s.regByte (BitVec.ofNat 6 (0x1D + 6 * j)) ++ s.regByte (BitVec.ofNat 6 (0x1C + 6 * j)) =
      s.ctl.touch[j].x.setWidth 16 ∧
    s.regByte (BitVec.ofNat 6 (0x1F + 6 * j)) ++ s.regByte (BitVec.ofNat 6 (0x1E + 6 * j)) =
      s.ctl.touch[j].y.setWidth 16 := by
  fin_cases j <;> exact ⟨rfl, rfl, byteOf_append_two _, byteOf_append_two _⟩

/-- The addresses above the last register read 0 (10 R36, 92 D3). -/
theorem regByte_above (s : State) (a : BitVec 6) (ha : 0x35 ≤ a.toNat) : s.regByte a = 0 := by
  have hmax : a.toNat < 64 := a.isLt
  unfold State.regByte
  generalize a.toNat = n at ha hmax
  interval_cases n <;> rfl

/-- Settles O14: row by row of the map. -/
theorem registerMapShowsEveryRegister : Obligations.RegisterMapShowsEveryRegister := by
  intro s
  refine ⟨regByte_iface s, rfl, regByte_charging s, rfl, fun i => ?_, fun i => ?_, fun k => ?_, fun k => ?_,
    byteOf_append_three _, regByte_touch s, byteOf_append_eight _, rfl, rfl, rfl, rfl, rfl, ?_, regByte_above s⟩
  · fin_cases i <;> rfl
  · fin_cases i <;> rfl
  · fin_cases k <;> exact byteOf_append_two_self _
  · fin_cases k <;> exact byteOf_append_two_self _
  · simp only [List.forall_mem_cons, List.not_mem_nil, false_imp_iff, implies_true, and_true]
    exact ⟨rfl, rfl, rfl⟩

/-! ### Reset and NOP -/

/-- Settles O15. -/
theorem rstRestoresEveryRegister : Obligations.RstRestoresEveryRegister := fun _ _ => rfl

/-- Settles O16: both are `resetRegs`, with and without a response. -/
theorem resetInputActsAsRst : Obligations.ResetInputActsAsRst := fun _ _ _ hc hin => ⟨_, rfl, step_reset hc hin⟩

/-- Settles O17. -/
theorem nopHasNoEffect : Obligations.NopHasNoEffect := fun _ _ => rfl

end Sys2Proof.Machine

/-! What an operation can do, once for all twenty (`Effect`), and what a step can do to a property of the block; from these two follow the
invariants of every step (spec 10 R35, R40, 30 R80), the writers of each register (10 R41) and what an error leaves (60 R205). -/

namespace Sys2Proof.Machine

open Sys2Proof.Safety

/-! ### The effect of an operation -/

/-- The RumbleState `m` and the LightbarState `l` are those of `s`, but for the one register whose setter `i` may be (10 R41). -/
def KeepsForeignRegisters (i : Instr) (s : State) (m : Rumble) (l : Lightbar) : Prop :=
  ((∀ v, i ≠ .srl v) → m.light = s.rumble.light) ∧ ((∀ v, i ≠ .srh v) → m.heavy = s.rumble.heavy) ∧
    ((∀ v, i ≠ .slr v) → l.r = s.lightbar.r) ∧ ((∀ v, i ≠ .slg v) → l.g = s.lightbar.g) ∧
    ((∀ v, i ≠ .slb v) → l.b = s.lightbar.b)

theorem keepsForeignRegisters_self (i : Instr) (s : State) : KeepsForeignRegisters i s s.rumble s.lightbar :=
  ⟨fun _ => rfl, fun _ => rfl, fun _ => rfl, fun _ => rfl, fun _ => rfl⟩

/-- An event that carries a frame: its report id, and a body as long as that frame's (30 R75, R80). -/
def IsFrameEvent (ev : Event) : Prop :=
  (∃ body, ev = .tx 0x05 1 body ∧ body.length = 15) ∨ ∃ body, ev = .tx 0x11 2 body ∧ body.length = 77

/-- The states an operation can lead to, by the form of the change. `exec_effect` says there are no others. -/
inductive Effect (i : Instr) (s : State) : State → Prop
  /-- Nothing is written: `NOP`, and the sub-operations that only return a value. -/
  | answer (v : Ret) : Effect i s (s.answer v)
  /-- `RST`. -/
  | reset (arg : BitVec 32) (hi : i = .rst arg) : Effect i s (s.resetRegs.complete none)
  /-- An error; a setter's own register may have been written before it (92 D20). -/
  | error (e : Status) (m : Rumble) (l : Lightbar) (he : e = .ePrecond ∨ e = .eBounds)
      (hkeep : KeepsForeignRegisters i s m l) : Effect i s (State.raise e { s with rumble := m, lightbar := l })
  /-- The first report, of length 63. -/
  | toUsb (len : BitVec 16) (rid : Byte) (hi : i = .rxr len rid) (hdisc : s.iface = .disc) :
      Effect i s (State.complete (some .usbRes) { s with iface := .usb, ctl := decodeView hw (s.rxView 0) s.tsIn })
  /-- The first report, of any other length. -/
  | toBt (len : BitVec 16) (rid : Byte) (hi : i = .rxr len rid) (hdisc : s.iface = .disc) :
      Effect i s (State.complete (some (.featReq 0x02)) { s with iface := .bt })
  /-- A view is decoded, by `DECODE` or by `RXR` on USB. -/
  | decoded (v : View) (ts : Stamp) (hi : (∃ len rid, i = .rxr len rid) ∨ ∃ view, i = .decode view)
      (hres : s.iface ≠ .disc) : Effect i s (State.complete none { s with ctl := decodeView hw v ts })
  /-- A report is decoded on Bluetooth. -/
  | decodedBt (len : BitVec 16) (rid : Byte) (hi : i = .rxr len rid) (hbt : s.iface = .bt) :
      Effect i s (State.complete (some (.featReq 0x02)) { s with ctl := decodeView hw (s.rxView 2) s.tsIn })
  /-- A frame is written to TX and sent, by a setter after its write, by `ENC` or by `SEND`. -/
  | sent (ev : Event) (f : List Byte) (m : Rumble) (l : Lightbar) (hev : IsFrameEvent ev) (hf : f.length ≤ btOutLen)
      (hkeep : KeepsForeignRegisters i s m l) :
      Effect i s (State.complete (some ev) (State.writeTx f { s with rumble := m, lightbar := l }))
  /-- A frame is written to TX and returned: `ENCODE_USB`, `ENCODE_BT`. -/
  | built (f : List Byte) (v : Ret) (hf : f.length ≤ btOutLen) : Effect i s ((s.writeTx f).answer v)

/-- The three cases of `SEND` after the write of a register (42 R169). -/
theorem effect_send {i : Instr} {s : State} {m : Rumble} {l : Lightbar} (hkeep : KeepsForeignRegisters i s m l) :
    Effect i s (send hw { s with rumble := m, lightbar := l }) := by
  obtain ⟨-, e⟩ | ⟨-, e⟩ | ⟨-, e⟩ := send_cases hw { s with rumble := m, lightbar := l }
  · rw [e]
    exact .error _ m l (.inl rfl) hkeep
  · rw [e]
    exact .sent _ _ m l (.inl ⟨_, rfl, by rw [usbBody_encodeUsb]; rfl⟩) (by rw [frameUsb_length]; decide) hkeep
  · rw [e]
    refine .sent _ _ m l (.inr ⟨_, rfl, ?_⟩) (frameBt_length ..).le hkeep
    rw [btBody_encodeBt, List.length_drop, frameBt_length]

/-- The six cases of `RXR` (40 R100). -/
theorem effect_receive (len : BitVec 16) (rid : Byte) (s : State) : Effect (.rxr len rid) s (receive hw len s) := by
  obtain ⟨h, -, e⟩ | ⟨h, -, e⟩ | ⟨-, -, e⟩ | ⟨h, -, e⟩ | ⟨-, -, e⟩ | ⟨h, -, e⟩ := receive_cases hw len s
  · rw [e]; exact .toBt len rid rfl h
  · rw [e]; exact .toUsb len rid rfl h
  · rw [e]; exact .error _ _ _ (.inr rfl) (keepsForeignRegisters_self _ s)
  · rw [e]; exact .decoded _ _ (.inl ⟨len, rid, rfl⟩) (by simp [h])
  · rw [e]; exact .error _ _ _ (.inr rfl) (keepsForeignRegisters_self _ s)
  · rw [e]; exact .decodedBt len rid rfl h

/-- The three cases of `DECODE` (41 R120, R137). -/
theorem effect_decodeOp (view : List Byte) (s : State) : Effect (.decode view) s (decodeOp hw view s) := by
  obtain ⟨-, e⟩ | ⟨-, -, e⟩ | ⟨h, -, e⟩ := decodeOp_cases hw view s
  · rw [e]; exact .error _ _ _ (.inl rfl) (keepsForeignRegisters_self _ s)
  · rw [e]; exact .error _ _ _ (.inr rfl) (keepsForeignRegisters_self _ s)
  · rw [e]; exact .decoded _ _ (.inr ⟨view, rfl⟩) h

/-- Every operation, in every state, completes with one of the effects (60 R200). -/
theorem exec_effect (i : Instr) (s : State) : ∃ t, exec i s = .next t ∧ Effect i s t := by
  cases i with
  | nop arg => exact ⟨_, rfl, .answer .none⟩
  | rst arg => exact ⟨_, rfl, .reset arg rfl⟩
  | rxr len rid => exact ⟨_, rfl, effect_receive len rid s⟩
  | srl val => exact ⟨_, rfl, effect_send ⟨fun h => absurd rfl (h val), fun _ => rfl, fun _ => rfl, fun _ => rfl, fun _ => rfl⟩⟩
  | srh val => exact ⟨_, rfl, effect_send ⟨fun _ => rfl, fun h => absurd rfl (h val), fun _ => rfl, fun _ => rfl, fun _ => rfl⟩⟩
  | slr val => exact ⟨_, rfl, effect_send ⟨fun _ => rfl, fun _ => rfl, fun h => absurd rfl (h val), fun _ => rfl, fun _ => rfl⟩⟩
  | slg val => exact ⟨_, rfl, effect_send ⟨fun _ => rfl, fun _ => rfl, fun _ => rfl, fun h => absurd rfl (h val), fun _ => rfl⟩⟩
  | slb val => exact ⟨_, rfl, effect_send ⟨fun _ => rfl, fun _ => rfl, fun _ => rfl, fun _ => rfl, fun h => absurd rfl (h val)⟩⟩
  | enc arg => exact ⟨_, rfl, effect_send (keepsForeignRegisters_self _ s)⟩
  | decode view => exact ⟨_, rfl, effect_decodeOp view s⟩
  | detect rawLength cur => exact ⟨_, rfl, .answer _⟩
  | normStick raw => exact ⟨_, rfl, .answer _⟩
  | normTrig raw => exact ⟨_, rfl, .answer _⟩
  | batt n c => exact ⟨_, rfl, .answer _⟩
  | slot b0 b1 b2 b3 => exact ⟨_, rfl, .answer _⟩
  | clamp8 v => exact ⟨_, rfl, .answer _⟩
  | send => exact ⟨_, rfl, effect_send (keepsForeignRegisters_self _ s)⟩
  | encodeUsb => exact ⟨_, rfl, .built _ _ (by rw [frameUsb_length]; decide)⟩
  | encodeBt => exact ⟨_, rfl, .built _ _ (frameBt_length ..).le⟩
  | crc32 m => exact ⟨_, rfl, .answer _⟩

/-- An operation that leads to `t` has its effect there. -/
theorem effect_of_exec {i : Instr} {s t : State} (h : exec i s = .next t) : Effect i s t := by
  obtain ⟨u, hu, heff⟩ := exec_effect i s
  obtain rfl : u = t := Host.Outcome.next.inj (hu.symm.trans h)
  exact heff

/-- Settles O11: each effect leaves a response, and none touches the host's list, the field `call`, RX or the ports. -/
theorem everyOperationCompletes : Obligations.EveryOperationCompletes := by
  intro i s
  obtain ⟨t, hexec, heff⟩ := exec_effect i s
  suffices h : ∃ r, t.rsp = some r ∧ t.input = s.input ∧ t.call = s.call ∧ t.tsIn = s.tsIn ∧ t.rx = s.rx ∧
      t.txOut = s.txOut ∧ t.regOut = s.regOut by
    obtain ⟨r, h⟩ := h
    exact ⟨t, r, hexec, h⟩
  cases heff <;> exact ⟨_, rfl, rfl, rfl, rfl, rfl, rfl, rfl⟩

section
variable {i : Instr} {s t : State}

/-- Which effects change the interface (10 R21). -/
theorem Effect.iface_cases (h : Effect i s t) : t.iface = s.iface ∨ (t.iface = .disc ∧ ∃ arg, i = .rst arg) ∨
    (s.iface = .disc ∧ ∃ len rid, i = .rxr len rid) := by
  cases h with
  | reset arg hi => exact .inr (.inl ⟨rfl, arg, hi⟩)
  | toUsb len rid hi hdisc => exact .inr (.inr ⟨hdisc, len, rid, hi⟩)
  | toBt len rid hi hdisc => exact .inr (.inr ⟨hdisc, len, rid, hi⟩)
  | _ => exact .inl rfl

/-- Which effects change ControllerState (10 R41). -/
theorem Effect.ctl_cases (h : Effect i s t) : t.ctl = s.ctl ∨ (∃ arg, i = .rst arg) ∨ (∃ len rid, i = .rxr len rid) ∨
    ∃ view, i = .decode view := by
  cases h with
  | reset arg hi => exact .inr (.inl ⟨arg, hi⟩)
  | toUsb len rid hi => exact .inr (.inr (.inl ⟨len, rid, hi⟩))
  | decoded v ts hi => exact .inr (.inr hi)
  | decodedBt len rid hi => exact .inr (.inr (.inl ⟨len, rid, hi⟩))
  | _ => exact .inl rfl

/-- No operation but `RST` writes another setter's register (10 R41). -/
theorem Effect.keepsForeignRegisters (h : Effect i s t) (hrst : ∀ arg, i ≠ .rst arg) :
    KeepsForeignRegisters i s t.rumble t.lightbar := by
  cases h with
  | reset arg hi => exact absurd hi (hrst arg)
  | error e m l he hkeep => exact hkeep
  | sent ev f m l hev hf hkeep => exact hkeep
  | _ => exact keepsForeignRegisters_self i s

/-- An operation that is no setter and not `RST` keeps RumbleState and LightbarState. -/
theorem Effect.rumble_lightbar (h : Effect i s t) (hrst : ∀ arg, i ≠ .rst arg) (hset : isSetter i = false) :
    t.rumble = s.rumble ∧ t.lightbar = s.lightbar := by
  obtain ⟨hlight, hheavy, hr, hg, hb⟩ := h.keepsForeignRegisters hrst
  have hlight := hlight fun v hv => by simp [hv, isSetter] at hset
  have hheavy := hheavy fun v hv => by simp [hv, isSetter] at hset
  have hr := hr fun v hv => by simp [hv, isSetter] at hset
  have hg := hg fun v hv => by simp [hv, isSetter] at hset
  have hb := hb fun v hv => by simp [hv, isSetter] at hset
  constructor
  · calc t.rumble = ⟨t.rumble.light, t.rumble.heavy⟩ := rfl
      _ = s.rumble := by rw [hlight, hheavy]
  · calc t.lightbar = ⟨t.lightbar.r, t.lightbar.g, t.lightbar.b⟩ := rfl
      _ = s.lightbar := by rw [hr, hg, hb]

end

/-- No operation of the decode path is a setter (10 R41). -/
theorem isSetter_of_isDecodePath {i : Instr} (hi : isDecodePath i = true) : isSetter i = false := by
  cases i with
  | srl | srh | slr | slg | slb => cases hi
  | _ => rfl

/-- Settles O56: the writers of each register by the effects. -/
theorem eachStateGroupHasOneWriter : Obligations.EachStateGroupHasOneWriter := by
  intro i s t h
  have heff := effect_of_exec h
  have hiface : (∀ arg, i ≠ .rst arg) → (∀ len rid, i ≠ .rxr len rid) → t.iface = s.iface := fun hrst hrxr => by
    obtain e | ⟨-, arg, hi⟩ | ⟨-, len, rid, hi⟩ := heff.iface_cases
    · exact e
    · exact absurd hi (hrst arg)
    · exact absurd hi (hrxr len rid)
  have hctl : (∀ arg, i ≠ .rst arg) → (∀ len rid, i ≠ .rxr len rid) → (∀ view, i ≠ .decode view) → t.ctl = s.ctl :=
    fun hrst hrxr hdec => by
      obtain e | ⟨arg, hi⟩ | ⟨len, rid, hi⟩ | ⟨view, hi⟩ := heff.ctl_cases
      · exact e
      · exact absurd hi (hrst arg)
      · exact absurd hi (hrxr len rid)
      · exact absurd hi (hdec view)
  refine ⟨fun hi => ?_, fun hi => ?_, fun hi => ?_, fun hrst => ⟨hiface hrst, hctl hrst, heff.keepsForeignRegisters hrst⟩⟩
  · exact heff.rumble_lightbar (by rintro arg rfl; cases hi) (isSetter_of_isDecodePath hi)
  · have hwriter : (∀ arg, i ≠ .rst arg) ∧ (∀ len rid, i ≠ .rxr len rid) ∧ ∀ view, i ≠ .decode view := by
      refine ⟨?_, ?_, ?_⟩ <;> (intros; rintro rfl; simp [isSetter] at hi)
    obtain ⟨hrst, hrxr, hdec⟩ := hwriter
    exact ⟨hctl hrst hrxr hdec, hiface hrst hrxr⟩
  · obtain ⟨arg, rfl⟩ := hi
    exact heff.rumble_lightbar (by simp) rfl

/-- Settles O57: of the effects only `error` answers an error. -/
theorem errorsLeaveNoOtherTrace : Obligations.ErrorsLeaveNoOtherTrace := by
  intro i s t r h hrsp hstatus
  cases effect_of_exec h with
  | error e m l he hkeep =>
    cases hrsp
    exact ⟨rfl, rfl, rfl, rfl, rfl, hkeep⟩
  | _ =>
    cases hrsp
    exact absurd rfl hstatus

/-! ### The effect of a step on a property of the block -/

/-- The registers, the buffers and the response of `t` are those of `s`: what idling, a read, and taking an action or a call leave. -/
structure SameBlock (s t : State) : Prop where
  iface : t.iface = s.iface
  ctl : t.ctl = s.ctl
  rx : t.rx = s.rx
  tx : t.tx = s.tx
  rsp : t.rsp = s.rsp

theorem sameBlock_sample (rest : List Action) (ts : Stamp) (s : State) : SameBlock s (sample rest ts s) :=
  ⟨rfl, rfl, rfl, rfl, rfl⟩

theorem sameBlock_taken (rest : List Action) (s : State) : SameBlock s (taken rest s) := ⟨rfl, rfl, rfl, rfl, rfl⟩

theorem sameBlock_callTaken (s : State) : SameBlock s (callTaken s) := ⟨rfl, rfl, rfl, rfl, rfl⟩

/-- A read of TX that does not stop shows a byte and changes nothing else. -/
theorem hostTxRead_next {a : BitVec 7} {s t : State} (h : hostTxRead a s = .next t) :
    t = { s with txOut := s.txByte a.toNat } := by
  by_cases ha : a.toNat ≤ 78
  · rw [hostTxRead_inside ha] at h
    exact (Host.Outcome.next.inj h).symm
  · rw [hostTxRead_outside (by omega)] at h
    cases h

/-- A property of the block is kept by every step if the operations, the host's three kinds of change and every step that leaves the
block alone keep it. -/
theorem step_preserves {P : State → Prop} (hexec : ∀ i s t, P s → Effect i s t → P t)
    (hreset : ∀ s, P s → P (hostReset s)) (hrx : ∀ a d s, P s → P (hostRxWrite hw a d s))
    (hillegal : ∀ s, P s → P (s.raise .eIllegal)) (hsame : ∀ s t, SameBlock s t → P s → P t) {s t : State} (hs : P s)
    (h : step s = .next t) : P t := by
  obtain ⟨op, l, i, -, -, e⟩ | ⟨op, l, why, -, -, e⟩ | ⟨-, ⟨-, e⟩ | ⟨rest, -, e⟩ | ⟨a, d, rest, -, e⟩ | ⟨a, rest, -, e⟩ |
    ⟨a, rest, -, e⟩ | ⟨w, ts, rest, i, -, -, e⟩ | ⟨w, ts, rest, why, -, -, e⟩⟩ := step_cases s <;> rw [e] at h
  · exact hexec i _ t (hsame _ _ (sameBlock_callTaken s) hs) (effect_of_exec h)
  · cases h
  · cases h
    exact hs
  · cases h
    exact hreset _ (hsame _ _ (sameBlock_taken rest s) hs)
  · cases h
    exact hrx a d _ (hsame _ _ (sameBlock_taken rest s) hs)
  · rw [hostTxRead_next h]
    exact hsame s _ ⟨rfl, rfl, rfl, rfl, rfl⟩ hs
  · cases h
    exact hsame s _ ⟨rfl, rfl, rfl, rfl, rfl⟩ hs
  · exact hexec i _ t (hsame _ _ (sameBlock_sample rest ts s) hs) (effect_of_exec h)
  · cases h
    exact hillegal _ (hsame _ _ (sameBlock_sample rest ts s) hs)

/-! ### The three invariants -/

/-- A response stands that is one of the eight words, an error without event. -/
theorem responseOk_of_rsp {s : State} {r : Response} (h : s.rsp = some r) (hword : r.word ∈ responseWords)
    (hev : r.status ≠ .ok → r.event = none) : ResponseOk s := by
  intro r' h'
  obtain rfl : r = r' := Option.some.inj (h.symm.trans h')
  exact ⟨hword, hev⟩

theorem word_of_isFrameEvent {ev : Event} (h : IsFrameEvent ev) : (Response.mk .ok (some ev)).word ∈ responseWords := by
  obtain ⟨body, rfl, hlen⟩ | ⟨body, rfl, hlen⟩ := h
  · rw [word_tx_usb hlen]; decide
  · rw [word_tx_bt hlen]; decide

theorem Effect.responseOk {i : Instr} {s t : State} (h : Effect i s t) : ResponseOk t := by
  cases h with
  | error e m l he hkeep => exact responseOk_of_rsp rfl (by rcases he with rfl | rfl <;> decide) fun _ => rfl
  | sent ev f m l hev hf hkeep => exact responseOk_of_rsp rfl (word_of_isFrameEvent hev) fun h => absurd rfl h
  | _ => exact responseOk_of_rsp rfl (by decide) fun h => absurd rfl h

/-- Settles O13: every operation leaves such a response, and no other step makes one. -/
theorem stepsAnswerOnlyTheEightWords : Obligations.StepsAnswerOnlyTheEightWords := by
  intro s t hs h
  refine step_preserves (fun i s t _ heff => heff.responseOk) (fun s _ => ?_) (fun a d s hs => ?_) (fun s _ => ?_)
    (fun s t hsame hs => ?_) hs h
  · intro r hr
    cases hr
  · intro r hr
    rw [(hostRxWrite_spec a d s).1] at hr
    exact hs r hr
  · exact responseOk_of_rsp rfl (by decide) fun _ => rfl
  · intro r hr
    exact hs r (hsame.rsp ▸ hr)

/-- The register invariant speaks of the interface and ControllerState only. -/
theorem inv_congr {s t : State} (hs : Inv s) (hiface : t.iface = s.iface) (hctl : t.ctl = s.ctl) : Inv t :=
  ⟨hctl ▸ hs.battery, hctl ▸ hs.touch, hctl ▸ hs.dpad, fun h => hctl ▸ hs.fresh (hiface ▸ h)⟩

/-- ControllerState at its reset values is good, whatever the interface (10 R38). -/
theorem inv_of_ctl_zero {s : State} (h : s.ctl = Controller.zero) : Inv s where
  battery := by rw [h]; unfold BatteryOk; decide
  touch := by rw [h]; unfold TouchOk; decide
  dpad := by rw [h]; unfold DpadOk; decide
  fresh _ := h

/-- What the decoder leaves is good once the interface is resolved (10 R40). -/
theorem inv_of_decoded {s : State} (c : Config) (v : View) (ts : Stamp) (h : s.ctl = decodeView c v ts)
    (hres : s.iface ≠ .disc) : Inv s where
  battery := h ▸ decodeView_batteryOk c v ts
  touch := h ▸ decodeView_touchOk c v ts
  dpad := h ▸ decodeView_dpadOk c v ts
  fresh hdisc := absurd hdisc hres

theorem Effect.inv {i : Instr} {s t : State} (hs : Inv s) (h : Effect i s t) : Inv t := by
  cases h with
  | reset arg hi => exact inv_of_ctl_zero rfl
  | toUsb len rid hi hdisc => exact inv_of_decoded hw _ _ rfl (by simp)
  | toBt len rid hi hdisc => exact inv_of_ctl_zero (hs.fresh hdisc)
  | decoded v ts hi hres => exact inv_of_decoded hw v ts rfl hres
  | decodedBt len rid hi hbt => exact inv_of_decoded hw _ _ rfl (by simp [hbt])
  | _ => exact inv_congr hs rfl rfl

/-- Settles O53: the decoder and reset establish the invariant, and nothing else touches what it speaks of. -/
theorem stepsKeepTheRegisterInvariant : Obligations.StepsKeepTheRegisterInvariant := by
  intro s t hs h
  refine step_preserves (fun i s t hs heff => heff.inv hs) (fun s _ => inv_of_ctl_zero rfl) (fun a d s hs => ?_)
    (fun s hs => inv_congr hs rfl rfl) (fun s t hsame hs => inv_congr hs hsame.iface hsame.ctl) hs h
  rw [(hostRxWrite_spec a d s).1]
  exact inv_congr hs rfl rfl

theorem Effect.buffersOk {i : Instr} {s t : State} (hs : BuffersOk s) (h : Effect i s t) : BuffersOk t := by
  obtain ⟨hrx, htx⟩ := hs
  cases h with
  | sent ev f m l hev hf hkeep => exact ⟨hrx, Memory.store_wf f htx (by omega)⟩
  | built f v hf => exact ⟨hrx, Memory.store_wf f htx (by omega)⟩
  | _ => exact ⟨hrx, htx⟩

/-- Settles O54: TX is written by frames no longer than it, RX by the host's single bytes. -/
theorem stepsKeepTheBuffersCanonical : Obligations.StepsKeepTheBuffersCanonical := by
  intro s t hs h
  refine step_preserves (fun i s t hs heff => heff.buffersOk hs) (fun s hs => hs) (fun a d s hs => ?_) (fun s hs => hs)
    (fun s t hsame hs => ?_) hs h
  · obtain ⟨hrx, htx⟩ := hs
    rw [(hostRxWrite_spec a d s).1]
    exact ⟨State.writeRx_wf hrx a.toNat d, htx⟩
  · rw [BuffersOk, hsame.rx, hsame.tx]
    exact hs

/-- Settles O52. -/
theorem resetStateIsGood : Obligations.ResetStateIsGood :=
  ⟨inv_of_ctl_zero rfl, State.reset_buffers, nofun, rfl, rfl, rfl, rfl, rfl, rfl, rfl⟩

/-! ### Steps that stop, and what a step runs -/

/-- Settles O10: every operation completes, so only a TX read and a call that does not decode stop. -/
theorem onlyTwoStepsStop : Obligations.OnlyTwoStepsStop := by
  intro s
  obtain ⟨op, l, i, -, -, e⟩ | ⟨op, l, why, hc, hd, e⟩ | ⟨hc, ⟨-, e⟩ | ⟨rest, -, e⟩ | ⟨a, d, rest, -, e⟩ |
    ⟨a, rest, hin, e⟩ | ⟨a, rest, -, e⟩ | ⟨w, ts, rest, i, -, -, e⟩ | ⟨w, ts, rest, why, -, -, e⟩⟩ := step_cases s <;>
    rw [e]
  · obtain ⟨t, ht, -⟩ := exec_effect i (callTaken s)
    rw [ht]
    exact ⟨nofun, nofun⟩
  · refine ⟨nofun, fun r hr => ?_⟩
    cases hr
    exact ⟨op, l, why, hc, hd, rfl⟩
  · exact ⟨nofun, nofun⟩
  · exact ⟨nofun, nofun⟩
  · exact ⟨nofun, nofun⟩
  · by_cases ha : a.toNat ≤ 78
    · rw [hostTxRead_inside ha]
      exact ⟨nofun, nofun⟩
    · have ha : 79 ≤ a.toNat := by omega
      rw [hostTxRead_outside ha]
      refine ⟨fun f hf => ?_, nofun⟩
      cases hf
      exact ⟨a, rest, hc, hin, ha, rfl⟩
  · exact ⟨nofun, nofun⟩
  · obtain ⟨t, ht, -⟩ := exec_effect i (sample rest ts s)
    rw [ht]
    exact ⟨nofun, nofun⟩
  · exact ⟨nofun, nofun⟩

/-- A step that runs no operation and is no connection start: it leaves the interface and the field `call`, and emits nothing. -/
structure QuietStep (s t : State) : Prop where
  notCalled : s.call = none
  call : t.call = none
  input : t.input = s.input.tail
  iface : t.iface = s.iface
  emits : emitted s t = none
  decodesNone : decodesBtReport s = false

/-- What ran in a step that leads to a next state: a sub-operation of the field `call`, the operation of a presented word, a
connection start by the reset input, or no operation. -/
theorem step_next_cases {s t : State} (h : step s = .next t) :
    (∃ op l i, s.call = some (op, l) ∧ decodeCall op l = .ok i ∧ exec i (callTaken s) = .next t) ∨
      (∃ w ts rest i, s.call = none ∧ s.input = .present w ts :: rest ∧ decodeCmd w = .ok i ∧
        exec i (sample rest ts s) = .next t) ∨
      (∃ rest, s.call = none ∧ s.input = .reset :: rest ∧ t = hostReset (taken rest s)) ∨ QuietStep s t := by
  obtain ⟨op, l, i, hc, hd, e⟩ | ⟨op, l, why, hc, hd, e⟩ | ⟨hc, ⟨hin, e⟩ | ⟨rest, hin, e⟩ | ⟨a, d, rest, hin, e⟩ |
    ⟨a, rest, hin, e⟩ | ⟨a, rest, hin, e⟩ | ⟨w, ts, rest, i, hin, hd, e⟩ | ⟨w, ts, rest, why, hin, hd, e⟩⟩ := step_cases s <;>
    rw [e] at h
  · exact .inl ⟨op, l, i, hc, hd, h⟩
  · cases h
  · cases h
    exact .inr (.inr (.inr ⟨hc, hc, by rw [hin]; rfl, rfl, by simp [emitted, hc, hin], by simp [decodesBtReport, hc, hin]⟩))
  · cases h
    exact .inr (.inr (.inl ⟨rest, hc, hin, rfl⟩))
  · cases h
    have hframe := (hostRxWrite_spec a d (taken rest s)).1
    refine .inr (.inr (.inr ⟨hc, ?_, ?_, ?_, by simp [emitted, hc, hin], by simp [decodesBtReport, hc, hin]⟩))
    · rw [hframe]; exact hc
    · rw [hframe, hin]; rfl
    · rw [hframe]; rfl
  · rw [hostTxRead_next h]
    exact .inr (.inr (.inr ⟨hc, hc, by rw [hin]; rfl, rfl, by simp [emitted, hc, hin], by simp [decodesBtReport, hc, hin]⟩))
  · cases h
    exact .inr (.inr (.inr ⟨hc, hc, by rw [hin]; rfl, rfl, by simp [emitted, hc, hin], by simp [decodesBtReport, hc, hin]⟩))
  · exact .inr (.inl ⟨w, ts, rest, i, hc, hin, hd, h⟩)
  · cases h
    exact .inr (.inr (.inr ⟨hc, hc, by rw [hin]; rfl, rfl, by simp [emitted, hc, hin],
      by simp [decodesBtReport, hc, hin, hd]⟩))

/-- Settles O60: the two decoders answer disjoint kinds of operation, and no operation fills the field `call`. -/
theorem subOperationsAreReachedOnlyThroughTheNine : Obligations.SubOperationsAreReachedOnlyThroughTheNine := by
  refine ⟨fun w i h => ?_, rfl, fun s t hcall h => ?_⟩
  · obtain ⟨-, -, hhost⟩ := encode_of_decodeCmd h
    exact hhost
  · obtain ⟨op, l, i, hc, -⟩ | ⟨w, ts, rest, i, -, -, -, hexec⟩ | ⟨rest, -, -, rfl⟩ | hquiet := step_next_cases h
    · rw [hcall] at hc
      cases hc
    · exact (exec_call i _ t hexec).trans hcall
    · exact hcall
    · exact hquiet.call

/-- A sub-operation run on its own leaves the interface: only `RST` and `RXR` change it. -/
theorem iface_of_called {op : SubOp} {l : List Byte} {i : Instr} {s t : State} (hd : decodeCall op l = .ok i)
    (h : Effect i s t) : t.iface = s.iface := by
  obtain ⟨-, -, hhost⟩ := encode_of_decodeCall hd
  obtain hi | ⟨-, arg, rfl⟩ | ⟨-, len, rid, rfl⟩ := h.iface_cases
  · exact hi
  · cases hhost
  · cases hhost

/-- Settles O55: of what a step can run, only `RXR`, `RST` and the reset input change the interface. -/
theorem ifaceChangesOnlyFromDisconnected : Obligations.IfaceChangesOnlyFromDisconnected := by
  intro s t h hne
  obtain ⟨op, l, i, -, hd, hexec⟩ | ⟨w, ts, rest, i, hc, hin, hd, hexec⟩ | ⟨rest, hc, hin, rfl⟩ | hquiet :=
    step_next_cases h
  · exact absurd (iface_of_called hd (effect_of_exec hexec)).symm hne
  · refine ⟨hc, ?_⟩
    obtain hi | ⟨hdisc, arg, rfl⟩ | ⟨hdisc, len, rid, rfl⟩ := (effect_of_exec hexec).iface_cases
    · exact absurd hi.symm hne
    · exact .inr ⟨hdisc, _, rest, hin, by simp [startsConnection, hd]⟩
    · exact .inl ⟨hdisc, w, ts, rest, len, rid, hin, hd⟩
  · exact ⟨hc, .inr ⟨rfl, _, rest, hin, rfl⟩⟩
  · exact absurd hquiet.iface.symm hne

end Sys2Proof.Machine

/-! The events of a run without connection start (spec 40 R108): what one step emits, and the two counts by induction on the run. -/

namespace Sys2Proof.Machine

open Sys2Proof.Safety

/-- An operation other than `RXR` emits neither `USBRES` nor `FEATREQ` (40 R102 to R104). -/
theorem Effect.event_of_not_rxr {i : Instr} {s t : State} (h : Effect i s t) (hi : ∀ len rid, i ≠ .rxr len rid)
    {ev : Event} (hev : (t.rsp.bind fun r => r.event) = some ev) : ev ≠ .usbRes ∧ ev ≠ .featReq 0x02 := by
  cases h with
  | toUsb len rid hi' => exact absurd hi' (hi len rid)
  | toBt len rid hi' => exact absurd hi' (hi len rid)
  | decodedBt len rid hi' => exact absurd hi' (hi len rid)
  | sent ev' f m l hev' hf hkeep =>
    cases hev
    obtain ⟨body, rfl, -⟩ | ⟨body, rfl, -⟩ := hev' <;> exact ⟨nofun, nofun⟩
  | _ => cases hev

/-- What a step that is no connection start does to the interface, and which of the detector's events it emits. -/
inductive Emission (s t : State) : Prop
  /-- The interface stays; `FEATREQ` is emitted exactly if a Bluetooth report is decoded. -/
  | keeps (hi : t.iface = s.iface) (husb : emitted s t ≠ some .usbRes)
      (hfeat : emitted s t = some (.featReq 0x02) ↔ decodesBtReport s = true)
      (hbt : decodesBtReport s = true → s.iface = .bt)
  /-- The first report resolves to USB. -/
  | toUsb (hs : s.iface = .disc) (ht : t.iface = .usb) (hev : emitted s t = some .usbRes)
      (hdec : decodesBtReport s = false)
  /-- The first report resolves to Bluetooth. -/
  | toBt (hs : s.iface = .disc) (ht : t.iface = .bt) (hev : emitted s t = some (.featReq 0x02))
      (hdec : decodesBtReport s = false)

/-- A step that emits neither event, decodes no Bluetooth report and leaves the interface. -/
theorem emission_of_neither {s t : State} (hi : t.iface = s.iface)
    (hev : ∀ ev, emitted s t = some ev → ev ≠ .usbRes ∧ ev ≠ .featReq 0x02) (hdec : decodesBtReport s = false) :
    Emission s t :=
  .keeps hi (fun h => (hev _ h).1 rfl) (by simpa [hdec] using fun h => (hev _ h).2 rfl) (by simp [hdec])

/-- The same of a step that emits nothing. -/
theorem emission_of_none {s t : State} (hi : t.iface = s.iface) (hem : emitted s t = none)
    (hdec : decodesBtReport s = false) : Emission s t :=
  emission_of_neither hi (fun ev hev => by rw [hem] at hev; cases hev) hdec

section
variable {s t : State} {w : CmdWord} {ts : Stamp} {rest : List Action}

theorem emitted_of_present (hc : s.call = none) (hin : s.input = .present w ts :: rest) :
    emitted s t = t.rsp.bind fun r => r.event := by
  simp only [emitted, hc, hin]

/-- A presented report of a resolved or unresolved block, case by case (40 R100, R102 to R105). -/
theorem emission_of_rxr {len : BitVec 16} {rid : Byte} (hc : s.call = none) (hin : s.input = .present w ts :: rest)
    (hd : decodeCmd w = .ok (.rxr len rid)) : Emission s (receive hw len (sample rest ts s)) := by
  have hdec : decodesBtReport s = decide (s.iface = .bt ∧ 44 ≤ len.toNat) := by simp only [decodesBtReport, hc, hin, hd]
  obtain ⟨h, -, e⟩ | ⟨h, -, e⟩ | ⟨h, -, e⟩ | ⟨h, -, e⟩ | ⟨-, hl, e⟩ | ⟨h, hl, e⟩ :=
    receive_cases hw len (sample rest ts s) <;> rw [e]
  · exact .toBt h rfl (emitted_of_present hc hin) (by simp [hdec, show s.iface = .disc from h])
  · exact .toUsb h rfl (emitted_of_present hc hin) (by simp [hdec, show s.iface = .disc from h])
  · exact emission_of_none rfl (emitted_of_present hc hin) (by simp [hdec, show s.iface = .usb from h])
  · exact emission_of_none rfl (emitted_of_present hc hin) (by simp [hdec, show s.iface = .usb from h])
  · exact emission_of_none rfl (emitted_of_present hc hin) (by simp [hdec, hl])
  · refine .keeps rfl ?_ (iff_of_true (emitted_of_present hc hin) (hdec.trans (decide_eq_true ⟨h, hl⟩))) fun _ => h
    rw [emitted_of_present hc hin]
    exact nofun

end

/-- Every step that is no connection start is of one of the three kinds. -/
theorem step_emission {s t : State} (hstart : ∀ a ∈ s.input.take 1, startsConnection a = false) (h : step s = .next t) :
    Emission s t := by
  obtain ⟨op, l, i, hc, hd, hexec⟩ | ⟨w, ts, rest, i, hc, hin, hd, hexec⟩ | ⟨rest, hc, hin, rfl⟩ | hquiet :=
    step_next_cases h
  · have heff := effect_of_exec hexec
    have hi : ∀ len rid, i ≠ .rxr len rid := by
      rintro len rid rfl
      obtain ⟨-, -, hhost⟩ := encode_of_decodeCall hd
      cases hhost
    have hiface : t.iface = (callTaken s).iface := iface_of_called hd heff
    refine emission_of_neither hiface (fun ev hev => heff.event_of_not_rxr hi ?_)
      (by simp only [decodesBtReport, hc])
    simpa only [emitted, hc] using hev
  · have hrst : startsConnection (.present w ts) = false := hstart _ (by simp [hin])
    by_cases hi : ∃ len rid, i = .rxr len rid
    · obtain ⟨len, rid, rfl⟩ := hi
      cases hexec
      exact emission_of_rxr hc hin hd
    · have hi : ∀ len rid, i ≠ .rxr len rid := fun len rid h => hi ⟨len, rid, h⟩
      have heff := effect_of_exec hexec
      refine emission_of_neither ?_ (fun ev hev => heff.event_of_not_rxr hi ?_) ?_
      · obtain hiface | ⟨-, arg, rfl⟩ | ⟨-, len, rid, hi'⟩ := heff.iface_cases
        · exact hiface
        · simp [startsConnection, hd] at hrst
        · exact absurd hi' (hi len rid)
      · rwa [emitted_of_present hc hin] at hev
      · cases i with
        | rxr len rid => exact absurd rfl (hi len rid)
        | _ => simp only [decodesBtReport, hc, hin, hd]
  · have hreset : startsConnection .reset = false := hstart _ (by simp [hin])
    cases hreset
  · exact emission_of_none hquiet.iface hquiet.emits hquiet.decodesNone

/-- A step takes at most one action from the host's list. -/
theorem step_input {s t : State} (h : step s = .next t) : t.input = s.input ∨ t.input = s.input.tail := by
  have hexec_input : ∀ i u, exec i u = .next t → t.input = u.input := fun i u hexec => by
    cases effect_of_exec hexec <;> rfl
  obtain ⟨op, l, i, -, -, hexec⟩ | ⟨w, ts, rest, i, -, hin, -, hexec⟩ | ⟨rest, -, hin, rfl⟩ | hquiet := step_next_cases h
  · exact .inl (hexec_input i (callTaken s) hexec)
  · exact .inr ((hexec_input i _ hexec).trans (by rw [hin]; rfl))
  · exact .inr (by rw [hin]; rfl)
  · exact .inr hquiet.input

/-- The actions left for `n` steps after a step are among those there were for `n + 1`. -/
theorem take_input_subset {s t : State} (h : step s = .next t) (n : Nat) : t.input.take n ⊆ s.input.take (n + 1) := by
  obtain e | e := step_input h <;> rw [e]
  · exact List.take_subset_take_left _ (Nat.le_succ n)
  · cases s.input with
    | nil => simp
    | cons a rest => exact List.subset_cons_self a _

/-- What the two counts of a run without connection start come to, from any interface. -/
structure RunCounts (n : Nat) (s t : State) : Prop where
  resolved : s.iface ≠ .disc → t.iface = s.iface
  usbRes : countEmitted .usbRes n s = if s.iface = .disc ∧ t.iface = .usb then 1 else 0
  featReq : countEmitted (.featReq 0x02) n s =
    countBtDecodes n s + if s.iface = .disc ∧ t.iface = .bt then 1 else 0
  decodes : t.iface ≠ .bt → countBtDecodes n s = 0

theorem countEmitted_succ (ev : Event) (n : Nat) {s t : State} (h : step s = .next t) :
    countEmitted ev (n + 1) s = (if emitted s t = some ev then 1 else 0) + countEmitted ev n t := by
  simp only [countEmitted, h]

theorem countBtDecodes_succ (n : Nat) {s t : State} (h : step s = .next t) :
    countBtDecodes (n + 1) s = (if decodesBtReport s then 1 else 0) + countBtDecodes n t := by
  simp only [countBtDecodes, h]

/-- The counts after one more step at the front of a run. -/
theorem RunCounts.cons {n : Nat} {s u t : State} (hstep : step s = .next u) (hem : Emission s u) (ih : RunCounts n u t) :
    RunCounts (n + 1) s t := by
  obtain ⟨hresolved, husb, hfeat, hdecodes⟩ := ih
  have husb' := countEmitted_succ .usbRes n hstep
  have hfeat' := countEmitted_succ (.featReq 0x02) n hstep
  have hdec' := countBtDecodes_succ n hstep
  cases hem with
  | keeps hi husb0 hfeat0 hbt =>
    rw [hi] at hresolved husb hfeat
    rw [if_neg husb0, Nat.zero_add] at husb'
    refine ⟨hresolved, husb'.trans husb, ?_, fun ht => ?_⟩
    · rw [hfeat', hdec', hfeat, Nat.add_assoc]
      simp only [hfeat0]
    · have hno : decodesBtReport s ≠ true := fun h => by
        have hs := hbt h
        exact ht ((hresolved (by simp [hs])).trans hs)
      rw [hdec', if_neg hno, hdecodes ht]
  | toUsb hs hu hev hdec =>
    have ht : t.iface = .usb := (hresolved (by simp [hu])).trans hu
    have hno : countBtDecodes n u = 0 := hdecodes (by simp [ht])
    refine ⟨fun h => absurd hs h, ?_, ?_, fun _ => ?_⟩
    · simp [husb', husb, hev, hs, hu, ht]
    · rw [hfeat', hdec', hfeat, hev, hdec]
      simp [ht]
    · simp [hdec', hdec, hno]
  | toBt hs hu hev hdec =>
    have ht : t.iface = .bt := (hresolved (by simp [hu])).trans hu
    refine ⟨fun h => absurd hs h, ?_, ?_, fun h => absurd ht h⟩
    · simp [husb', husb, hev, hu, ht]
    · rw [hfeat', hdec', hfeat, hev, hdec]
      simp [hs, hu, ht, Nat.add_comm]

/-- The counts of every run without connection start, by induction on its length. -/
theorem runCounts_of_run (n : Nat) (s t : State) (hstart : ∀ a ∈ s.input.take n, startsConnection a = false)
    (h : core.run n s = .next t) : RunCounts n s t := by
  induction n generalizing s with
  | zero =>
    cases h
    refine ⟨fun _ => rfl, ?_, ?_, fun _ => rfl⟩
    · cases t.iface <;> simp [countEmitted]
    · cases t.iface <;> simp [countEmitted, countBtDecodes]
  | succ n ih =>
    obtain ⟨u, hstep, hrun⟩ := run_next n s t h
    have hem := step_emission (fun a ha => hstart a (List.take_subset_take_left _ (by omega) ha)) hstep
    exact .cons hstep hem (ih u (fun a ha => hstart a (take_input_subset hstep n ha)) hrun)

/-- Settles O58. -/
theorem usbResIsEmittedOncePerUsbConnection : Obligations.UsbResIsEmittedOncePerUsbConnection := by
  intro n s t hdisc hstart hrun
  obtain ⟨-, husb, -, -⟩ := runCounts_of_run n s t hstart hrun
  simp [husb, hdisc]

/-- Settles O59: a run that does not end as Bluetooth decoded no Bluetooth report. -/
theorem featureRequestsCountTheBluetoothReports : Obligations.FeatureRequestsCountTheBluetoothReports := by
  intro n s t hdisc hstart hrun
  obtain ⟨-, -, hfeat, hdecodes⟩ := runCounts_of_run n s t hstart hrun
  rw [hfeat]
  by_cases ht : t.iface = .bt
  · simp [hdisc, ht, Nat.add_comm]
  · simp [ht, hdecodes ht]

end Sys2Proof.Machine
